-- ==== Sys2Proof/Word.lean ====
section
/-! DEFINITION. The widths of the block's values: every value is an unsigned bit vector of a stated width (R17). -/

namespace Sys2Proof

/-- An octet, 8 bits (R12, R17). -/
abbrev Octet := BitVec 8

/-- A word, 16 bits: a command word, or the `data` field of a response (R13, R17). -/
abbrev Word := BitVec 16

/-- The `op` field of a request word, 4 bits (R14, R55). -/
abbrev Opcode := BitVec 4

/-- A request word `{op, arg}`, 12 bits (R14, R55). -/
abbrev ReqWord := BitVec 12

/-- A response `{err, data}` as it stands on the port `rsp`, 17 bits (R14, R58). -/
abbrev RspWord := BitVec 17

end Sys2Proof
end

