-- ==== Sys2Proof/Syntax.lean ====
section
/-! DEFINITION. The operations of CVCE-OPS version 1 (R3, R59): one constructor per row of spec/opcode_table.json. -/

namespace Sys2Proof

/-- The nine operations. The operand types admit exactly the operands the spec calls legal (R56, R57), so an operation
with an out-of-range operand cannot be written (93_implementation_defined.md T1). -/
inductive Instr where
  /-- `CMD.SLEEP` (R68) -/
  | cmdSleep
  /-- `CMD.WAKE` (R69) -/
  | cmdWake
  /-- `CMD.RESET` (R70) -/
  | cmdReset
  /-- `CMD.READID` (R71) -/
  | cmdReadId
  /-- `CMD.MEAS cs, lp, hf` (R72): `clock_stretch_enabled`, `low_power`, `humidity_first` -/
  | cmdMeas (cs lp hf : Bool)
  /-- `CRC.INIT` (R81) -/
  | crcInit
  /-- `CRC.ABSORB b` (R82) -/
  | crcAbsorb (b : Octet)
  /-- `CRC.CHECK e` (R83) -/
  | crcCheck (e : Octet)
  /-- `CRC.READ` (R84) -/
  | crcRead
  deriving DecidableEq, Repr

end Sys2Proof
end

