-- ==== Sys2Proof/Decode.lean ====
section
/-! DEFINITION. The request word (R55 to R57), decoding of all 4096 words (R59 to R61), and the encoder. -/

namespace Sys2Proof

/-- `req[11:8]` (R55). -/
def opField (req : ReqWord) : Opcode := req.extractLsb' 8 4

/-- `req[7:0]` (R55). -/
def argField (req : ReqWord) : Octet := req.extractLsb' 0 8

/-- The request word `{op, arg}` (R55). -/
def requestWord (op : Opcode) (arg : Octet) : ReqWord := op ++ arg

/-- Why a request word is illegal: the three causes of R61. The block itself tells them apart nowhere (R92: one error,
no cause code); the names serve a reader of the model (log 5). -/
inductive Illegal where
  /-- R61 (a): `op` is one of the seven reserved values -/
  | reservedOpcode
  /-- R61 (b): an operation without operand, and `arg` is not 0x00 -/
  | operandNotZero
  /-- R61 (c): `CMD.MEAS`, and `arg[7:3]` is not 0b00000 -/
  | measHighBits
  deriving DecidableEq, Repr

/-- Form `Z` (R56): `arg` must be 0x00. -/
def decodeZ (arg : Octet) (i : Instr) : Except Illegal Instr :=
  if arg = 0x00#8 then .ok i else .error .operandNotZero

/-- Form `F` (R56): `arg[2]` = `cs`, `arg[1]` = `lp`, `arg[0]` = `hf`, and `arg[7:3]` must be 0b00000. -/
def decodeF (arg : Octet) : Except Illegal Instr :=
  if arg.extractLsb' 3 5 = 0b00000#5 then .ok (.cmdMeas (arg.getLsbD 2) (arg.getLsbD 1) (arg.getLsbD 0))
  else .error .measHighBits

/-- The decoder of R60: every one of the 4096 words is one of the nine operations or illegal. -/
def decode (req : ReqWord) : Except Illegal Instr :=
  let op := opField req
  let arg := argField req
  if op = 0x0#4 then decodeZ arg .cmdSleep
  else if op = 0x1#4 then decodeZ arg .cmdWake
  else if op = 0x2#4 then decodeZ arg .cmdReset
  else if op = 0x3#4 then decodeZ arg .cmdReadId
  else if op = 0x4#4 then decodeF arg
  else if op = 0x8#4 then decodeZ arg .crcInit
  else if op = 0x9#4 then .ok (.crcAbsorb arg)
  else if op = 0xA#4 then .ok (.crcCheck arg)
  else if op = 0xB#4 then decodeZ arg .crcRead
  else .error .reservedOpcode

/-- The flags of form `F` as an octet, `{0b00000, cs, lp, hf}` (R56). -/
def flagsOctet (cs lp hf : Bool) : Octet :=
  0b00000#5 ++ BitVec.ofBool cs ++ BitVec.ofBool lp ++ BitVec.ofBool hf

/-- The request word of an operation, from the opcode map of R59. -/
def encode : Instr → ReqWord
  | .cmdSleep => requestWord 0x0 0x00
  | .cmdWake => requestWord 0x1 0x00
  | .cmdReset => requestWord 0x2 0x00
  | .cmdReadId => requestWord 0x3 0x00
  | .cmdMeas cs lp hf => requestWord 0x4 (flagsOctet cs lp hf)
  | .crcInit => requestWord 0x8 0x00
  | .crcAbsorb b => requestWord 0x9 b
  | .crcCheck e => requestWord 0xA e
  | .crcRead => requestWord 0xB 0x00

/-! ### Legality as R61 words it, apart from the decoder -/

/-- The seven reserved values of `op` (R59, R61). -/
def reservedOp (op : Opcode) : Bool :=
  op == 0x5 || op == 0x6 || op == 0x7 || op == 0xC || op == 0xD || op == 0xE || op == 0xF

/-- The six opcodes of form `Z` (R56). -/
def formZOp (op : Opcode) : Bool :=
  op == 0x0 || op == 0x1 || op == 0x2 || op == 0x3 || op == 0x8 || op == 0xB

/-- R61: a request word is illegal when (a), (b) or (c). -/
def illegalRequest (req : ReqWord) : Bool :=
  reservedOp (opField req)
    || (formZOp (opField req) && argField req != 0x00)
    || (opField req == 0x4 && (argField req).extractLsb' 3 5 != 0b00000)

/-! ### The opcode table as rows of match and mask (spec/opcode_table.json) -/

/-- One row's `match` and `mask`. -/
structure TableRow where
  matchBits : ReqWord
  mask : ReqWord
  deriving DecidableEq, Repr

/-- A word belongs to a row when its bits under the mask are the row's. -/
def TableRow.covers (r : TableRow) (req : ReqWord) : Bool := req &&& r.mask == r.matchBits

/-- The nine rows, in the table's order. -/
def opcodeTable : List TableRow :=
  [⟨0x000, 0xFFF⟩, ⟨0x100, 0xFFF⟩, ⟨0x200, 0xFFF⟩, ⟨0x300, 0xFFF⟩, ⟨0x400, 0xFF8⟩,
   ⟨0x800, 0xFFF⟩, ⟨0x900, 0xF00⟩, ⟨0xA00, 0xF00⟩, ⟨0xB00, 0xFFF⟩]

/-- The row of an operation. -/
def Instr.row : Instr → TableRow
  | .cmdSleep => ⟨0x000, 0xFFF⟩
  | .cmdWake => ⟨0x100, 0xFFF⟩
  | .cmdReset => ⟨0x200, 0xFFF⟩
  | .cmdReadId => ⟨0x300, 0xFFF⟩
  | .cmdMeas _ _ _ => ⟨0x400, 0xFF8⟩
  | .crcInit => ⟨0x800, 0xFFF⟩
  | .crcAbsorb _ => ⟨0x900, 0xF00⟩
  | .crcCheck _ => ⟨0xA00, 0xF00⟩
  | .crcRead => ⟨0xB00, 0xFFF⟩

/-- The operation the decoder reads from the word `w`, its bits numbered as the opcode table numbers them, `nbits` of
them given. A request is one 12-bit word (R55): a number with a bit above bit 11 is no request word (log 7). -/
def decodeTableWord (nbits w : Nat) : Option Instr :=
  let bits := w % 2 ^ nbits
  if bits < 2 ^ 12 then (decode (BitVec.ofNat 12 bits)).toOption else none

end Sys2Proof
end

