-- ==== Sys2Proof/Config.lean ====
section
/-! DEFINITION. What one build of the block fixes and the spec leaves open: the two latencies. -/

namespace Sys2Proof.Config

/-- The open parameters of a build (R15, R133): `LAT_CMD` and `LAT_CRC`, integers of at least 1. Each is held as the
number of cycles BEYOND the first, so that every value of this type is a legal build. No operation rule reads them;
statements about every state hold for every build. -/
structure Build where
  /-- `LAT_CMD - 1` -/
  extraCmd : Nat
  /-- `LAT_CRC - 1` -/
  extraCrc : Nat
  deriving DecidableEq, Repr

/-- `LAT_CMD` (R15). -/
def Build.latCmd (b : Build) : Nat := b.extraCmd + 1

/-- `LAT_CRC` (R15). -/
def Build.latCrc (b : Build) : Nat := b.extraCrc + 1

end Sys2Proof.Config
end

