-- ==== Sys2Proof/Machine/State.lean ====
section
/-! DEFINITION. The state of the block and of its ports between two clock edges, and the state after reset. -/

namespace Sys2Proof.Machine

/-- A response `{err, data}` (R58). -/
structure Response where
  /-- 0: the operation was executed. 1: the request was illegal and nothing was executed -/
  err : Bool
  data : Word
  deriving DecidableEq, Repr

/-- An operation accepted and not yet answered (R29, R120). -/
structure InFlight where
  /-- the request word that was accepted -/
  req : ReqWord
  /-- the edges still to pass before the one at which the operation completes -/
  wait : Nat
  deriving DecidableEq, Repr

/-- What the host drives on the input ports during one cycle, sampled at the edge that ends it (R119, R120). -/
structure PortInput where
  rst : Bool
  reqValid : Bool
  req : ReqWord
  deriving DecidableEq, Repr

/-- The block in one clock cycle. `crc` and `matchFlag` are the whole architectural state (R20); the rest is what the
ports show or take (R119), the operation in progress (R29), and the build's constants (R15). -/
structure State where
  /-- the register `CRC` (R22) -/
  crc : Octet
  /-- the register `MATCH` (R24) -/
  matchFlag : Bool
  /-- the operation in progress; `req_ready` is 1 when there is none (R120) -/
  inFlight : Option InFlight
  /-- the response offered in this cycle; `rsp_valid` is 1 when there is one (R120). Not a register: every edge
  replaces it, nothing reads it back (R58) -/
  rsp : Option Response
  /-- what the host drives in this cycle (the head) and in the cycles to come; after the last entry it drives no
  request and no reset (log 1) -/
  inputs : List PortInput
  /-- the latencies of this build (R15), written by nothing (log 2) -/
  build : Config.Build
  deriving DecidableEq, Repr

/-- Why the machine could stop with a fault: for no reason. R93: "No other error exists", R122: "The block cannot hang
and cannot be stuck". `IllegalOp` (R92) is a response, not a stop (log 12). -/
inductive Fault where
  deriving DecidableEq, Repr

/-- Why an instruction could have no meaning. -/
inductive Refusal where
  /-- raised by an arm of `exec` whose instruction has no meaning yet (there is none); safe: nothing is claimed of it -/
  | notModelled (mnemonic : String)
  deriving DecidableEq, Repr

/-- The state in the first cycle after reset: `CRC` = 0xFF and `MATCH` = 0 (R32, R114), no operation in progress and no
response offered (R114). The host's inputs and the build are the model's choices (log 1, log 2). -/
def State.reset : State where
  crc := 0xFF
  matchFlag := false
  inFlight := none
  rsp := none
  inputs := []
  build := ⟨0, 0⟩

end Sys2Proof.Machine
end

