-- ==== Sys2Proof/Machine/Ops.lean ====
section
/-! DEFINITION. The shared operations: reads and writes of the two registers, the command table, responding, raising
`IllegalOp`, and reset. -/

namespace Sys2Proof.Machine

/-- What one operation or one edge answers. -/
abbrev Result := Host.Outcome State Fault Refusal

/-- `zext_16` (R18): zeros added above the top bit to make 16 bits. -/
def zext16 {n : Nat} (v : BitVec n) : Word := v.setWidth 16

/-! ### The registers (R19, R22, R24) -/

/-- `CRC <- v` -/
def State.writeCrc (s : State) (v : Octet) : State := { s with crc := v }

/-- `MATCH <- m` -/
def State.writeMatch (s : State) (m : Bool) : State := { s with matchFlag := m }

/-! ### The command table (R35 to R38) -/

/-- `TBL`, the twelve command words of R37 in index order. Nothing can write it (R38). -/
def tbl : Vector Word 12 :=
  #v[0xB098, 0x3517, 0x805D, 0xEFC8,
     0x7866, 0x58E0, 0x609C, 0x401A,
     0x7CA2, 0x5C24, 0x6458, 0x44DE]

/-- `TBL[i]` (R19, R35): one entry, whole. An index of 12 or more cannot be formed (R47). -/
def readTbl (i : Fin 12) : Word := tbl[i]

/-! ### Responses (R19, R58) -/

/-- The state with the response `{e, d}` offered. -/
def State.offer (s : State) (e : Bool) (d : Word) : State := { s with rsp := some ⟨e, d⟩ }

/-- `respond(e, d)`: ends the operation with this response (R19). -/
def respond (e : Bool) (d : Word) (s : State) : Result := .next (s.offer e d)

/-- `raise IllegalOp = respond(1, 0x0000)`, neither register written (R92). There is nothing to save and nothing to
return from (R98, R99). -/
def raiseIllegalOp (s : State) : Result := respond true 0x0000 s

/-- The 17-bit response word: `rsp[16]` = `err`, `rsp[15:0]` = `data` (R58). -/
def Response.pack (r : Response) : RspWord := BitVec.ofBool r.err ++ r.data

/-- `wire(w)`: the two octets of a command word in transmission order, high octet first (R40, R66). -/
def wire (w : Word) : Octet × Octet := (w.extractLsb' 8 8, w.extractLsb' 0 8)

/-! ### Reset (R114, R115) -/

/-- What a rising edge with `rst` = 1 does: `CRC <- 0xFF`, `MATCH <- 0`, the operation in progress dropped, no response
offered; nothing else (R114, R115). -/
def State.applyReset (s : State) : State :=
  { s with crc := 0xFF, matchFlag := false, inFlight := none, rsp := none }

end Sys2Proof.Machine
end

