-- ==== Sys2Proof/Machine/Flags.lean ====
section
/-! DEFINITION. The one flag, `MATCH` (R24): the value each writer gives it. -/

namespace Sys2Proof.Machine

/-- What `CRC.CHECK e` writes: `(CRC == e)` (R83). -/
def matchOfCheck (crc e : Octet) : Bool := crc == e

/-- What every operation that writes `CRC` writes: 0 (R24, R81, R82). -/
def matchCleared : Bool := false

/-- The 1-bit flag zero-extended to the `data` field (R58, R83). -/
def matchData (m : Bool) : Word := zext16 (BitVec.ofBool m)

end Sys2Proof.Machine
end

