-- ==== Sys2Proof/Machine/Checksum.lean ====
section
/-! DEFINITION. The checksum validator: the four `CRC.*` operations (R81 to R84). All writes of one operation take
effect together and every right-hand side reads the state before it (R19). -/

namespace Sys2Proof.Machine

/-- `CRC.INIT` (R81): `CRC <- 0xFF`, `MATCH <- 0`, `respond(0, 0x00FF)`. -/
def execCrcInit (s : State) : Result :=
  respond false (zext16 crcInit) ((s.writeCrc crcInit).writeMatch matchCleared)

/-- `CRC.ABSORB b` (R82): `n = crc8_octet(CRC, b)`, `CRC <- n`, `MATCH <- 0`, `respond(0, zext_16(n))`. -/
def execCrcAbsorb (b : Octet) (s : State) : Result :=
  let n := crc8Octet s.crc b
  respond false (zext16 n) ((s.writeCrc n).writeMatch matchCleared)

/-- `CRC.CHECK e` (R83): `m = (CRC == e)`, `MATCH <- m`, `respond(0, zext_16(m))`; `e` is not absorbed. -/
def execCrcCheck (e : Octet) (s : State) : Result :=
  let m := matchOfCheck s.crc e
  respond false (matchData m) (s.writeMatch m)

/-- `CRC.READ` (R84): `respond(0, zext_16(CRC))`. -/
def execCrcRead (s : State) : Result := respond false (zext16 s.crc) s

end Sys2Proof.Machine
end

