-- ==== Sys2Proof/Machine/Operands.lean ====
section
/-! DEFINITION. Operands (R56, R57): the table index that an operation's opcode and flags select. The octet operand of
form `B` is taken as it stands, and form `Z` has none. -/

namespace Sys2Proof.Machine

/-- The index of the four fixed commands in `TBL` (R36): 0 sleep, 1 wake, 2 soft-reset, 3 read-id. -/
def sleepIndex : Fin 12 := 0
def wakeIndex : Fin 12 := 1
def softResetIndex : Fin 12 := 2
def readIdIndex : Fin 12 := 3

/-- The index of a measurement word, `4 + 4*cs + 2*lp + hf` (R36, R57). -/
def measIndex (cs lp hf : Bool) : Fin 12 :=
  ⟨4 + 4 * cs.toNat + 2 * lp.toNat + hf.toNat, by cases cs <;> cases lp <;> cases hf <;> decide⟩

end Sys2Proof.Machine
end

