-- ==== Sys2Proof/Machine/Command.lean ====
section
/-! DEFINITION. The command encoder: the five `CMD.*` operations (R65, R68 to R72). None reads or writes `CRC` or
`MATCH` (R67). -/

namespace Sys2Proof.Machine

/-- `CMD.SLEEP` (R68): `respond(0, TBL[0])`. -/
def execCmdSleep (s : State) : Result := respond false (readTbl sleepIndex) s

/-- `CMD.WAKE` (R69): `respond(0, TBL[1])`. -/
def execCmdWake (s : State) : Result := respond false (readTbl wakeIndex) s

/-- `CMD.RESET` (R70): `respond(0, TBL[2])`. It resets the sensor, not the block. -/
def execCmdReset (s : State) : Result := respond false (readTbl softResetIndex) s

/-- `CMD.READID` (R71): `respond(0, TBL[3])`. -/
def execCmdReadId (s : State) : Result := respond false (readTbl readIdIndex) s

/-- `CMD.MEAS cs, lp, hf` (R72): `respond(0, TBL[4 + 4*cs + 2*lp + hf])`. -/
def execCmdMeas (cs lp hf : Bool) (s : State) : Result := respond false (readTbl (measIndex cs lp hf)) s

end Sys2Proof.Machine
end

