-- ==== Sys2Proof/Machine/Dispatch.lean ====
section
/-! DEFINITION. The meaning of every operation: one arm per constructor of Instr. -/

namespace Sys2Proof.Machine

def exec (i : Instr) (s : State) : Host.Outcome State Fault Refusal :=
  match i with
  | .cmdSleep => Sys2Proof.Machine.execCmdSleep s
  | .cmdWake => Sys2Proof.Machine.execCmdWake s
  | .cmdReset => Sys2Proof.Machine.execCmdReset s
  | .cmdReadId => Sys2Proof.Machine.execCmdReadId s
  | .cmdMeas cs lp hf => Sys2Proof.Machine.execCmdMeas cs lp hf s
  | .crcInit => Sys2Proof.Machine.execCrcInit s
  | .crcAbsorb b => Sys2Proof.Machine.execCrcAbsorb b s
  | .crcCheck e => Sys2Proof.Machine.execCrcCheck e s
  | .crcRead => Sys2Proof.Machine.execCrcRead s

end Sys2Proof.Machine
end

