-- ==== Sys2Proof/Machine/Ports.lean ====
section
/-! DEFINITION. The ports and their handshake (R114, R115, R119 to R121): what one rising edge of `clk` does, and what
the outputs show in a cycle. -/

namespace Sys2Proof.Machine

/-- A cycle in which the host asserts no reset and offers no request. -/
def idleInput : PortInput := ⟨false, false, 0x000⟩

/-- What the host drives in the current cycle; past the written inputs it drives nothing (log 1). -/
def State.nextInput (s : State) : PortInput := s.inputs.headD idleInput

/-- The state with the current cycle's inputs taken away. -/
def State.popInput (s : State) : State := { s with inputs := s.inputs.tail }

/-- `L - 1` for a request word (R120): `LAT_CMD` when `op[3]` = 0 and `LAT_CRC` when `op[3]` = 1, for an illegal word
too. -/
def extraCycles (b : Config.Build) (req : ReqWord) : Nat :=
  if (opField req).getLsbD 3 then b.extraCrc else b.extraCmd

/-- `L`, the latency of a request word (R120). -/
def latency (b : Config.Build) (req : ReqWord) : Nat :=
  if (opField req).getLsbD 3 then b.latCrc else b.latCmd

/-- One request executed whole (R49, R123): the operation it decodes to, or the error response (R60, R92). -/
def serve (req : ReqWord) (s : State) : Result :=
  match decode req with
  | .ok i => exec i s
  | .error _ => raiseIllegalOp s

/-- The state with no operation in progress and no response offered. -/
def State.quiet (s : State) : State := { s with inFlight := none, rsp := none }

/-- One edge of an accepted operation (R120): it completes when no edge is left to wait for, else it stays in progress
with nothing offered and nothing written (R29). -/
def advance (f : InFlight) (s : State) : Result :=
  match f.wait with
  | 0 => serve f.req s.quiet
  | n + 1 => .next { s with inFlight := some ⟨f.req, n⟩, rsp := none }

/-- One rising edge of `clk`, the inputs already sampled into `inp` (R114, R115, R120): reset wins; then an operation
in progress goes on and the request port is ignored; else an offered request is accepted. -/
def edge (inp : PortInput) (s : State) : Result :=
  if inp.rst then .next s.applyReset
  else
    match s.inFlight with
    | some f => advance f s
    | none => if inp.reqValid then advance ⟨inp.req, extraCycles s.build inp.req⟩ s else .next s.quiet

/-- One clock cycle: the edge that ends it, on the inputs the host drives in it. -/
def cycle (s : State) : Result := edge s.nextInput s.popInput

/-- The request accepted in the current cycle, if any: `rst` = 0, `req_valid` = 1, `req_ready` = 1 (R120). -/
def State.accepted (s : State) : Option ReqWord :=
  if !s.nextInput.rst && s.nextInput.reqValid && s.inFlight.isNone then some s.nextInput.req else none

/-- The output ports in one cycle (R31, R119). -/
structure Outputs where
  reqReady : Bool
  rspValid : Bool
  /-- meaningful only while `rsp_valid` = 1 (R119), so it has a value only then (log 3) -/
  rsp : Option RspWord
  crcQ : Octet
  matchQ : Bool
  deriving DecidableEq, Repr

/-- What the output ports show in the current cycle. -/
def State.outputs (s : State) : Outputs where
  reqReady := s.inFlight.isNone
  rspValid := s.rsp.isSome
  rsp := s.rsp.map Response.pack
  crcQ := s.crc
  matchQ := s.matchFlag

end Sys2Proof.Machine
end

