-- ==== Sys2Proof/Machine/Step.lean ====
section
/-! DEFINITION. One step of the machine: one clock cycle (R120). -/

namespace Sys2Proof.Machine

/-- One step: the current cycle and the rising edge that ends it. With `LAT_CMD` = `LAT_CRC` = 1 and a request offered
every cycle, one step is one operation (R120). -/
def step (s : State) : Host.Outcome State Fault Refusal := cycle s

/-- `s` with the request word `w` placed so that the very next step runs it, whatever `s` is and whatever the build's
latencies are: it stands on the request port in a cycle of its own, with no reset; in a build that answers in the next
cycle the block is ready for it, in a slower build the word is already accepted and in its last cycle (log 7). -/
def State.withFetchWord (s : State) (nbits w : Nat) : State :=
  let req := BitVec.ofNat 12 (w % 2 ^ nbits)
  { s with
    inputs := ⟨false, true, req⟩ :: s.inputs
    inFlight := if extraCycles s.build req = 0 then none else some ⟨req, 0⟩ }

end Sys2Proof.Machine
end

