-- ==== Sys2Proof/WellFormed.lean ====
section
/-! DEFINITION. Operand checks. An `Instr` needs none: its operand types are the legal operands (R56, T1 of
93_implementation_defined.md). The checks are those of the assembler, whose operands are numbers of any size (R63, R64). -/

namespace Sys2Proof

/-- One source line of the assembler: an operation, a raw request word (R63), or a pseudo-operation (R64). Operands are
the numbers as written, not yet checked against their ranges. -/
inductive Line where
  | cmdSleep
  | cmdWake
  | cmdReset
  | cmdReadId
  | cmdMeas (cs lp hf : Nat)
  | crcInit
  | crcAbsorb (b : Nat)
  | crcCheck (e : Nat)
  | crcRead
  /-- `.req w`: a raw request word, legal or not -/
  | req (w : Nat)
  /-- `CRC.COMPUTE b0, ..., b(n-1)` -/
  | crcCompute (bytes : List Nat)
  /-- `CRC.VALIDATE b0, ..., b(n-1) ; e` -/
  | crcValidate (bytes : List Nat) (e : Nat)
  /-- `CRC.GROUP hi, lo, ck` -/
  | crcGroup (hi lo ck : Nat)
  /-- the eight names `CMD.MEAS.<NORMAL or LOWPOWER>.<NOSTRETCH or STRETCH>.<TFIRST or HFIRST>` -/
  | measNamed (lowpower stretch hfirst : Bool)
  deriving DecidableEq, Repr

/-- A flag operand is 0 or 1 (R63). -/
def flagInRange (n : Nat) : Bool := n < 2

/-- An octet operand is 0 to 255 (R63). -/
def octetInRange (n : Nat) : Bool := n < 256

/-- A raw request word is 0x000 to 0xFFF (R63). -/
def reqInRange (n : Nat) : Bool := n < 4096

/-- Every operand of the line is in its range (R63); an assembler refuses a line that is not well formed. -/
def Line.wellFormed : Line → Bool
  | .cmdSleep => true
  | .cmdWake => true
  | .cmdReset => true
  | .cmdReadId => true
  | .cmdMeas cs lp hf => flagInRange cs && flagInRange lp && flagInRange hf
  | .crcInit => true
  | .crcAbsorb b => octetInRange b
  | .crcCheck e => octetInRange e
  | .crcRead => true
  | .req w => reqInRange w
  | .crcCompute bytes => bytes.all octetInRange
  | .crcValidate bytes e => bytes.all octetInRange && octetInRange e
  | .crcGroup hi lo ck => octetInRange hi && octetInRange lo && octetInRange ck
  | .measNamed _ _ _ => true

end Sys2Proof
end

