-- ==== Sys2Proof/Machine/Assembler.lean ====
section
/-! DEFINITION. The assembler (R63, R64): the request words of a source line, and the reading of a line's text. -/

namespace Sys2Proof.Machine

/-- A flag as the assembler takes it: 1 is true, 0 is false (R56). -/
def flagOf (n : Nat) : Bool := n == 1

/-- An octet operand; the range is checked before (R63). -/
def octetOf (n : Nat) : Octet := BitVec.ofNat 8 n

/-- `CRC.ABSORB b0`; ...; `CRC.ABSORB b(n-1)`. -/
def absorbAll (bytes : List Nat) : List ReqWord := bytes.map fun b => encode (.crcAbsorb (octetOf b))

/-- The words of a line whose operands are in range: the table of R63 and the expansions of R64. -/
def expand : Line → List ReqWord
  | .cmdSleep => [encode .cmdSleep]
  | .cmdWake => [encode .cmdWake]
  | .cmdReset => [encode .cmdReset]
  | .cmdReadId => [encode .cmdReadId]
  | .cmdMeas cs lp hf => [encode (.cmdMeas (flagOf cs) (flagOf lp) (flagOf hf))]
  | .crcInit => [encode .crcInit]
  | .crcAbsorb b => [encode (.crcAbsorb (octetOf b))]
  | .crcCheck e => [encode (.crcCheck (octetOf e))]
  | .crcRead => [encode .crcRead]
  | .req w => [BitVec.ofNat 12 w]
  | .crcCompute bytes => encode .crcInit :: (absorbAll bytes ++ [encode .crcRead])
  | .crcValidate bytes e => encode .crcInit :: (absorbAll bytes ++ [encode (.crcCheck (octetOf e))])
  | .crcGroup hi lo ck => encode .crcInit :: (absorbAll [hi, lo] ++ [encode (.crcCheck (octetOf ck))])
  | .measNamed lowpower stretch hfirst => [encode (.cmdMeas stretch lowpower hfirst)]

/-- The assembler: it refuses a line with an operand outside its range and never truncates one (R63). -/
def assemble (l : Line) : Option (List ReqWord) := if l.wellFormed then some (expand l) else none

/-- A program: its lines' words in order; refused when one line is. -/
def assembleAll : List Line → Option (List ReqWord)
  | [] => some []
  | l :: ls => do
    let ws ← assemble l
    let rest ← assembleAll ls
    return ws ++ rest

/-! ### The text of a line (R63; where R63 and R64 are silent, log 8) -/

/-- A space or a tab. -/
def isBlank (c : Char) : Bool := c == ' ' || c == '\t'

/-- The text without blanks at either end. -/
def trimBlanks (cs : List Char) : List Char := ((cs.dropWhile isBlank).reverse.dropWhile isBlank).reverse

/-- The pieces of a text between occurrences of a separator; at least one. -/
def splitAtChar (sep : Char) : List Char → List (List Char)
  | [] => [[]]
  | c :: cs =>
    match splitAtChar sep cs with
    | [] => [[]]
    | piece :: pieces => if c == sep then [] :: piece :: pieces else (c :: piece) :: pieces

/-- The value of a digit, hexadecimal digits in either case. -/
def digitValue (c : Char) : Option Nat :=
  let n := c.toNat
  if 48 ≤ n ∧ n ≤ 57 then some (n - 48)
  else if 65 ≤ n ∧ n ≤ 70 then some (n - 55)
  else if 97 ≤ n ∧ n ≤ 102 then some (n - 87)
  else none

/-- A run of digits of a base, read onto a value so far. -/
def readDigits (base : Nat) : Nat → List Char → Option Nat
  | acc, [] => some acc
  | acc, c :: cs =>
    match digitValue c with
    | some d => if d < base then readDigits base (acc * base + d) cs else none
    | none => none

/-- At least one digit of a base. -/
def readNonempty (base : Nat) (cs : List Char) : Option Nat := if cs.isEmpty then none else readDigits base 0 cs

/-- A number: decimal, hexadecimal with `0x`, or binary with `0b` (R63). -/
def readNumber : List Char → Option Nat
  | '0' :: 'x' :: cs => readNonempty 16 cs
  | '0' :: 'b' :: cs => readNonempty 2 cs
  | cs => readNonempty 10 cs

/-- All the values, or none when one is missing. -/
def allSome : List (Option Nat) → Option (List Nat)
  | [] => some []
  | none :: _ => none
  | some n :: rest => (allSome rest).map (n :: ·)

/-- Operands separated by commas; no text is no operand. -/
def readOperands (cs : List Char) : Option (List Nat) :=
  let t := trimBlanks cs
  if t.isEmpty then some [] else allSome ((splitAtChar ',' t).map fun p => readNumber (trimBlanks p))

/-- A line's operation from its mnemonic and its operands; `checked` is the operand after the `;` of `CRC.VALIDATE`. -/
def lineOf (mnemonic : String) (ops : List Nat) (checked : Option Nat) : Option Line :=
  match mnemonic, ops, checked with
  | "CMD.SLEEP", [], none => some .cmdSleep
  | "CMD.WAKE", [], none => some .cmdWake
  | "CMD.RESET", [], none => some .cmdReset
  | "CMD.READID", [], none => some .cmdReadId
  | "CMD.MEAS", [cs, lp, hf], none => some (.cmdMeas cs lp hf)
  | "CRC.INIT", [], none => some .crcInit
  | "CRC.ABSORB", [b], none => some (.crcAbsorb b)
  | "CRC.CHECK", [e], none => some (.crcCheck e)
  | "CRC.READ", [], none => some .crcRead
  | ".req", [w], none => some (.req w)
  | "CRC.COMPUTE", bytes, none => some (.crcCompute bytes)
  | "CRC.VALIDATE", bytes, some e => some (.crcValidate bytes e)
  | "CRC.GROUP", [hi, lo, ck], none => some (.crcGroup hi lo ck)
  | "CMD.MEAS.NORMAL.NOSTRETCH.TFIRST", [], none => some (.measNamed false false false)
  | "CMD.MEAS.NORMAL.NOSTRETCH.HFIRST", [], none => some (.measNamed false false true)
  | "CMD.MEAS.LOWPOWER.NOSTRETCH.TFIRST", [], none => some (.measNamed true false false)
  | "CMD.MEAS.LOWPOWER.NOSTRETCH.HFIRST", [], none => some (.measNamed true false true)
  | "CMD.MEAS.NORMAL.STRETCH.TFIRST", [], none => some (.measNamed false true false)
  | "CMD.MEAS.NORMAL.STRETCH.HFIRST", [], none => some (.measNamed false true true)
  | "CMD.MEAS.LOWPOWER.STRETCH.TFIRST", [], none => some (.measNamed true true false)
  | "CMD.MEAS.LOWPOWER.STRETCH.HFIRST", [], none => some (.measNamed true true true)
  | _, _, _ => none

/-- The text of one source line: the line, or nothing for a blank or comment line; `none` when it is no line of the
syntax. A `;` starts a comment (R63), but for the first `;` of `CRC.VALIDATE`, which R64 puts before its last operand. -/
def readLine (text : List Char) : Option (Option Line) :=
  let pieces := splitAtChar ';' text
  let body := trimBlanks (pieces.headD [])
  let mnemonic := String.ofList (body.takeWhile fun c => !isBlank c)
  let rest := body.dropWhile fun c => !isBlank c
  if body.isEmpty then some none
  else
    match readOperands rest with
    | none => none
    | some ops =>
      if mnemonic = "CRC.VALIDATE" then
        match (pieces[1]?).bind (fun p => readNumber (trimBlanks p)) with
        | some e => (lineOf mnemonic ops (some e)).map some
        | none => none
      else (lineOf mnemonic ops none).map some

end Sys2Proof.Machine
end

