-- ==== Sys2Proof/Machine/Run.lean ====
section
/-! DEFINITION. Runs (R123): a list of requests served one after the other, and a number of clock cycles on the ports. -/

namespace Sys2Proof.Machine

/-- The result of a run (R123): the final state and the responses, one per request, in order. -/
structure Run where
  final : State
  responses : List Response
  deriving DecidableEq, Repr

/-- A run of requests, each executed whole in order (R49, R123). -/
def runRequests : List ReqWord → State → Host.Outcome Run Fault Refusal
  | [], s => .next ⟨s, []⟩
  | w :: ws, s =>
    match serve w s with
    | .next t =>
      match runRequests ws t with
      | .next r => .next ⟨r.final, t.rsp.toList ++ r.responses⟩
      | .fault x => .fault x
      | .refused x => .refused x
    | .fault x => .fault x
    | .refused x => .refused x

/-- What was seen on the ports during some cycles (R120): the final state, the request words accepted and the
responses offered, each in order. -/
structure PortRun where
  final : State
  accepted : List ReqWord
  responses : List Response
  deriving DecidableEq, Repr

/-- `n` clock cycles. -/
def runCycles : Nat → State → Host.Outcome PortRun Fault Refusal
  | 0, s => .next ⟨s, [], []⟩
  | n + 1, s =>
    match cycle s with
    | .next t =>
      match runCycles n t with
      | .next r => .next ⟨r.final, s.accepted.toList ++ r.accepted, t.rsp.toList ++ r.responses⟩
      | .fault x => .fault x
      | .refused x => .refused x
    | .fault x => .fault x
    | .refused x => .refused x

/-- The request whose operation completes at the edge that ends the current cycle, if any (R120): the one in progress
with no edge left to wait for, or the one accepted in this cycle by a build of latency 1. Reset completes nothing (R115). -/
def State.completing (s : State) : Option ReqWord :=
  if s.nextInput.rst then none
  else
    match s.inFlight with
    | some f => if f.wait = 0 then some f.req else none
    | none => if s.nextInput.reqValid && extraCycles s.build s.nextInput.req == 0 then some s.nextInput.req else none

/-- The octet an operation absorbs (R82), if it absorbs one. -/
def absorbedOctet : Instr → Option Octet
  | .cmdSleep => none
  | .cmdWake => none
  | .cmdReset => none
  | .cmdReadId => none
  | .cmdMeas _ _ _ => none
  | .crcInit => none
  | .crcAbsorb b => some b
  | .crcCheck _ => none
  | .crcRead => none

/-- The octets the requests absorb, in order; an illegal request absorbs none. -/
def absorbed (ws : List ReqWord) : List Octet :=
  ws.filterMap fun w => (decode w).toOption.bind absorbedOctet

/-- The word is a legal request of the command encoder. -/
def isCommand (w : ReqWord) : Bool := ((decode w).toOption.isSome) && !(opField w).getLsbD 3

end Sys2Proof.Machine
end

