-- ==== Sys2Proof/Machine/HostUse.lean ====
section
/-! DEFINITION. How TS's driver uses the block (R41, R42, R109 to R112): the request lists it sends and what it makes of
the responses. These rules bind the host, not the block; the driver itself is outside (R6). -/

namespace Sys2Proof.Machine

/-- Three octets as received: `{data_hi, data_lo, checksum}` (R41). -/
structure OctetGroup where
  hi : Octet
  lo : Octet
  ck : Octet
  deriving DecidableEq, Repr

/-- The raw code of a group, `{data_hi, data_lo}` (R41); of the three identity octets, the identity (R111). -/
def OctetGroup.code (g : OctetGroup) : Word := g.hi ++ g.lo

/-- The checksum octet is `compute` of the two data octets in wire order (R42, R79). -/
def OctetGroup.good (g : OctetGroup) : Bool := validate [g.hi, g.lo] g.ck

/-- The check of one group (R110 (4), R64 `CRC.GROUP`). -/
def groupRequests (g : OctetGroup) : List ReqWord :=
  [encode .crcInit, encode (.crcAbsorb g.hi), encode (.crcAbsorb g.lo), encode (.crcCheck g.ck)]

/-- The six octets of a measurement read: octets 0 to 2 and octets 3 to 5 (R41). -/
structure RawFrame where
  first : OctetGroup
  second : OctetGroup
  deriving DecidableEq, Repr

/-- The six octets in the order received. -/
def RawFrame.octets (f : RawFrame) : List Octet :=
  [f.first.hi, f.first.lo, f.first.ck, f.second.hi, f.second.lo, f.second.ck]

/-- The requests of one measurement (R110): the command, then the two group checks. The second group is always checked
(log 11). -/
def measureRequests (cs lp hf : Bool) (f : RawFrame) : List ReqWord :=
  encode (.cmdMeas cs lp hf) :: (groupRequests f.first ++ groupRequests f.second)

/-- What the driver makes of a measurement (R110 (6)): two raw codes, or `ChecksumFault`. -/
inductive Measured where
  | codes (temperature humidity : Word)
  | checksumFault
  deriving DecidableEq, Repr

/-- A group's check passed: `err` = 0 and `data[0]` = 1 (R110, R128). -/
def checkPassed (r : Response) : Bool := !r.err && r.data.getLsbD 0

/-- The driver's verdict from the responses to `measureRequests` (R110 (6)): temperature first when `humidity_first` is
false. -/
def measured (hf : Bool) (f : RawFrame) (responses : List Response) : Measured :=
  if (responses[4]?.any checkPassed) && (responses[8]?.any checkPassed) then
    if hf then .codes f.second.code f.first.code else .codes f.first.code f.second.code
  else .checksumFault

/-- The octets the driver transmits for a `CMD.*` response, in order; nothing when `err` = 1 (R109, R128, R129). -/
def octetsToSend (r : Response) : List Octet :=
  if r.err then [] else [(wire r.data).1, (wire r.data).2]

/-- The requests of an identity read whose checksum the host checks, as TS advises (R111). -/
def identityRequests (i : OctetGroup) : List ReqWord := encode .cmdReadId :: groupRequests i

end Sys2Proof.Machine
end

