-- ==== Sys2Proof/Safety.lean ====
section
/-! DEFINITION. What is promised of every state and of every response, in the terms the statements use. -/

namespace Sys2Proof.Safety

open Sys2Proof.Machine

/-- The data of a response is one the spec allows (R39, R58, R95): 0x0000 for an error; else one of the twelve command
words, or a result of the checksum validator, whose high octet is 0x00. -/
def legalResponse (r : Response) : Bool :=
  if r.err then r.data == 0x0000 else tbl.toList.contains r.data || r.data.extractLsb' 8 8 == 0x00

/-- An operation in progress waits for fewer edges than its latency leaves (R120). -/
def waitInRange (b : Config.Build) (f : InFlight) : Bool := f.wait < extraCycles b f.req

/-- The invariant of the ports (R120, R121): a response is offered only in a cycle with nothing in progress; what is in
progress is within its latency; a response offered is a legal one. -/
structure PortsOk (s : State) : Prop where
  answeredThenReady : s.rsp.isSome = true → s.inFlight = none
  withinLatency : s.inFlight.all (waitInRange s.build) = true
  responseLegal : s.rsp.all legalResponse = true

/-- What a host can know of the past (R22, R24): the octets absorbed since the last `CRC.INIT` or reset, and the operand
of the last `CRC.CHECK` when no `CRC.INIT`, `CRC.ABSORB` or reset came after it. Not state of the block. -/
structure History where
  sequence : List Octet
  checked : Option Octet
  deriving DecidableEq, Repr

/-- After reset, and after `CRC.INIT`. -/
def History.start : History := ⟨[], none⟩

/-- The history after an operation. -/
def History.afterInstr (h : History) : Instr → History
  | .cmdSleep => h
  | .cmdWake => h
  | .cmdReset => h
  | .cmdReadId => h
  | .cmdMeas _ _ _ => h
  | .crcInit => .start
  | .crcAbsorb b => ⟨h.sequence ++ [b], none⟩
  | .crcCheck e => ⟨h.sequence, some e⟩
  | .crcRead => h

/-- The history after a request; an illegal one changes nothing (R92). -/
def History.afterRequest (h : History) (w : ReqWord) : History :=
  match decode w with
  | .ok i => h.afterInstr i
  | .error _ => h

/-- The history after the edge that ends the current cycle of `s`. -/
def History.afterEdge (h : History) (s : State) : History :=
  if s.nextInput.rst then .start
  else
    match s.completing with
    | some w => h.afterRequest w
    | none => h

/-- The registers are what the history says they are (R22, R24): `CRC` is `compute` of the sequence, and `MATCH` is 1
exactly when the last of `CRC.INIT`, `CRC.ABSORB`, `CRC.CHECK` and reset was a `CRC.CHECK` of that value. -/
structure Agrees (h : History) (s : State) : Prop where
  crcIsCompute : s.crc = compute h.sequence
  matchIsLastCheck : s.matchFlag = h.checked.any (validate h.sequence)

end Sys2Proof.Safety
end

