-- ==== Sys2Proof/Certificates/Slice0/Obligations.lean ====
section
/-! DEFINITION. The statements for the provers. Each cites the rules of spec/ it rests on. -/

open Sys2Proof Sys2Proof.Machine Sys2Proof.Safety

/-! ### The command encoder (40_command_encoder.md) -/

/-- R68, `CMD.SLEEP`: its word, its whole next state (only the response changes), and `IllegalOp` on an operand. -/
def Obligations.SleepAnswersTheSleepWord : Prop :=
  decode 0x000 = .ok .cmdSleep ∧ readTbl 0 = 0xB098 ∧ wire 0xB098 = (0xB0, 0x98) ∧
  (∀ s : State, exec .cmdSleep s = .next { s with rsp := some ⟨false, 0xB098⟩ }) ∧
  ∀ (arg : Octet) (s : State), arg ≠ 0x00 →
    serve (requestWord 0x0 arg) s = .next { s with rsp := some ⟨true, 0x0000⟩ }

/-- R69, `CMD.WAKE`. -/
def Obligations.WakeAnswersTheWakeWord : Prop :=
  decode 0x100 = .ok .cmdWake ∧ readTbl 1 = 0x3517 ∧ wire 0x3517 = (0x35, 0x17) ∧
  (∀ s : State, exec .cmdWake s = .next { s with rsp := some ⟨false, 0x3517⟩ }) ∧
  ∀ (arg : Octet) (s : State), arg ≠ 0x00 →
    serve (requestWord 0x1 arg) s = .next { s with rsp := some ⟨true, 0x0000⟩ }

/-- R70, `CMD.RESET`: the sensor's soft-reset word; `CRC` and `MATCH` are unchanged. -/
def Obligations.SoftResetAnswersItsWordAndResetsNothing : Prop :=
  decode 0x200 = .ok .cmdReset ∧ readTbl 2 = 0x805D ∧ wire 0x805D = (0x80, 0x5D) ∧
  (∀ s : State, exec .cmdReset s = .next { s with rsp := some ⟨false, 0x805D⟩ }) ∧
  ∀ (arg : Octet) (s : State), arg ≠ 0x00 →
    serve (requestWord 0x2 arg) s = .next { s with rsp := some ⟨true, 0x0000⟩ }

/-- R71, `CMD.READID`. -/
def Obligations.ReadIdAnswersTheReadIdWord : Prop :=
  decode 0x300 = .ok .cmdReadId ∧ readTbl 3 = 0xEFC8 ∧ wire 0xEFC8 = (0xEF, 0xC8) ∧
  (∀ s : State, exec .cmdReadId s = .next { s with rsp := some ⟨false, 0xEFC8⟩ }) ∧
  ∀ (arg : Octet) (s : State), arg ≠ 0x00 →
    serve (requestWord 0x3 arg) s = .next { s with rsp := some ⟨true, 0x0000⟩ }

/-- The eight cases of R72 in the order `cs`, `lp`, `hf`: the word and its two wire octets. -/
def Sys2Proof.measCase : Bool → Bool → Bool → Word × Octet × Octet
  | false, false, false => (0x7866, 0x78, 0x66)
  | false, false, true => (0x58E0, 0x58, 0xE0)
  | false, true, false => (0x609C, 0x60, 0x9C)
  | false, true, true => (0x401A, 0x40, 0x1A)
  | true, false, false => (0x7CA2, 0x7C, 0xA2)
  | true, false, true => (0x5C24, 0x5C, 0x24)
  | true, true, false => (0x6458, 0x64, 0x58)
  | true, true, true => (0x44DE, 0x44, 0xDE)

/-- R72, `CMD.MEAS cs, lp, hf`: for every flag triple the request word, the table entry `4 + 4*cs + 2*lp + hf`, its
word and wire octets, and the whole next state; `IllegalOp` when `arg[7:3]` is not zero. -/
def Obligations.MeasureAnswersTheWordOfItsFlags : Prop :=
  (∀ cs lp hf : Bool,
    decode (0x400 + BitVec.ofNat 12 (4 * cs.toNat + 2 * lp.toNat + hf.toNat)) = .ok (.cmdMeas cs lp hf) ∧
    (∀ i : Fin 12, i.val = 4 + 4 * cs.toNat + 2 * lp.toNat + hf.toNat → readTbl i = (measCase cs lp hf).1) ∧
    wire (measCase cs lp hf).1 = (measCase cs lp hf).2 ∧
    ∀ s : State, exec (.cmdMeas cs lp hf) s = .next { s with rsp := some ⟨false, (measCase cs lp hf).1⟩ }) ∧
  ∀ (arg : Octet) (s : State), arg.extractLsb' 3 5 ≠ 0b00000#5 →
    serve (requestWord 0x4 arg) s = .next { s with rsp := some ⟨true, 0x0000⟩ }

/-- R73: there are twelve legal `CMD.*` requests, each has a word, and their words are pairwise different, so a word
identifies its request. -/
def Obligations.CommandWordsIdentifyTheirRequest : Prop :=
  ((List.range 4096).filter fun n => isCommand (BitVec.ofNat 12 n)).length = 12 ∧
  (∀ (w : ReqWord) (s : State), isCommand w = true →
    ∃ (t : State) (d : Word), serve w s = .next t ∧ t.rsp = some ⟨false, d⟩) ∧
  ∀ (w w' : ReqWord) (s s' t t' : State), isCommand w = true → isCommand w' = true →
    serve w s = .next t → serve w' s' = .next t' → t.rsp = t'.rsp → w = w'

/-- R39: a command response is one of the twelve words, an error response is 0x0000, and 0x0000 is none of them. -/
def Obligations.OnlyTheTwelveWordsComeOutAsCommands : Prop :=
  (∀ (w : ReqWord) (s : State), isCommand w = true →
    ∃ (i : Fin 12) (t : State), serve w s = .next t ∧ t.rsp = some ⟨false, readTbl i⟩) ∧
  (∀ (w : ReqWord) (s : State), illegalRequest w = true →
    ∃ t, serve w s = .next t ∧ t.rsp = some ⟨true, 0x0000⟩) ∧
  ∀ i : Fin 12, readTbl i ≠ 0x0000

/-- R75: the select of the multiplexer: `op[2]` = 0 picks one of the four fixed words by `op[1:0]`, `op[2]` = 1 one of
the eight measurement words by `arg[2:0]`. -/
def Obligations.CommandSelectFollowsTheRequestBits : Prop :=
  ∀ (w : ReqWord) (s : State) (i : Fin 12), isCommand w = true →
    i.val = (if (opField w).getLsbD 2 then 4 + ((argField w).extractLsb' 0 3).toNat
      else ((opField w).extractLsb' 0 2).toNat) →
    serve w s = .next { s with rsp := some ⟨false, readTbl i⟩ }

/-- R67: the response to a `CMD.*` request is a function of the request word alone and no register is written; and the
request may stand anywhere among other requests without changing their responses or the final registers. -/
def Obligations.CommandsTouchNothingAndMayStandAnywhere : Prop :=
  ∀ w : ReqWord, isCommand w = true → ∃ x : Response,
    (∀ s : State, serve w s = .next { s with rsp := some x }) ∧
    ∀ (before after : List ReqWord) (s : State), ∃ (a b : Run) (c d : List Response),
      runRequests (before ++ after) s = .next a ∧ runRequests (before ++ w :: after) s = .next b ∧
      c.length = before.length ∧ a.responses = c ++ d ∧ b.responses = c ++ x :: d ∧
      b.final.crc = a.final.crc ∧ b.final.matchFlag = a.final.matchFlag

/-- R40, R66: wire octet 0, sent first, is `w[15:8]`; wire octet 1 is `w[7:0]`; together they are the word. -/
def Obligations.WireFormIsHighOctetFirst : Prop :=
  ∀ w : Word, wire w = (BitVec.ofNat 8 (w.toNat / 256), BitVec.ofNat 8 (w.toNat % 256)) ∧
    (wire w).1 ++ (wire w).2 = w

/-! ### The checksum validator (41_checksum_validator.md) -/

/-- R81, `CRC.INIT`: the whole next state, and `IllegalOp` on an operand with neither register written. -/
def Obligations.InitSetsTheInitialValueAndClearsMatch : Prop :=
  decode 0x800 = .ok .crcInit ∧
  (∀ s : State, exec .crcInit s = .next { s with crc := 0xFF, matchFlag := false, rsp := some ⟨false, 0x00FF⟩ }) ∧
  ∀ (arg : Octet) (s : State), arg ≠ 0x00 →
    serve (requestWord 0x8 arg) s = .next { s with rsp := some ⟨true, 0x0000⟩ }

/-- R82, `CRC.ABSORB b`: the whole next state for every octet; the corner cases; and no intermediate value is visible:
a cycle in which no operation completes leaves `CRC` alone and offers no response. -/
def Obligations.AbsorbRunsTheOctetStep : Prop :=
  (∀ (b : Octet) (s : State), decode (requestWord 0x9 b) = .ok (.crcAbsorb b) ∧
    exec (.crcAbsorb b) s = .next { s with
      crc := crc8Octet s.crc b, matchFlag := false, rsp := some ⟨false, (crc8Octet s.crc b).setWidth 16⟩ }) ∧
  crc8Octet 0xFF 0x00 = 0xAC ∧ (∀ c : Octet, crc8Octet c c = 0x00) ∧
  ∀ s t : State, s.nextInput.rst = false → s.completing = none → step s = .next t → t.crc = s.crc ∧ t.rsp = none

/-- R83, R94, `CRC.CHECK e`: `MATCH` and the response are the comparison, `CRC` is kept, and a mismatch is no error. -/
def Obligations.CheckComparesAndKeepsTheChecksum : Prop :=
  ∀ (e : Octet) (s : State), decode (requestWord 0xA e) = .ok (.crcCheck e) ∧
    (s.crc = e → exec (.crcCheck e) s = .next { s with matchFlag := true, rsp := some ⟨false, 0x0001⟩ }) ∧
    (s.crc ≠ e → exec (.crcCheck e) s = .next { s with matchFlag := false, rsp := some ⟨false, 0x0000⟩ })

/-- R84, `CRC.READ`: the checksum zero-extended; no register written; `IllegalOp` on an operand. -/
def Obligations.ReadAnswersTheChecksum : Prop :=
  decode 0xB00 = .ok .crcRead ∧
  (∀ s : State, exec .crcRead s = .next { s with rsp := some ⟨false, 0x00#8 ++ s.crc⟩ }) ∧
  ∀ (arg : Octet) (s : State), arg ≠ 0x00 →
    serve (requestWord 0xB arg) s = .next { s with rsp := some ⟨true, 0x0000⟩ }

/-- R79: exactly one `expected` validates, namely `compute(bytes)`. -/
def Obligations.ExactlyTheComputedOctetValidates : Prop :=
  ∀ (bytes : List Octet) (e : Octet), validate bytes e = true ↔ e = compute bytes

/-- R80: after `CRC.INIT`, or after reset, and any requests with no other `CRC.INIT`, `CRC` is `compute` of the octets
absorbed; a `CRC.READ` then answers it and a `CRC.CHECK e` answers and keeps `validate`. -/
def Obligations.SplitChecksumComputesTheFold : Prop :=
  ∀ (ws : List ReqWord) (s : State), (∀ w ∈ ws, decode w ≠ .ok .crcInit) →
    ∀ start ∈ [runRequests (encode .crcInit :: ws) s, runRequests ws s.applyReset],
      ∃ r : Run, start = .next r ∧ r.final.crc = compute (absorbed ws) ∧
        (∃ t, serve (encode .crcRead) r.final = .next t ∧
          t.rsp = some ⟨false, (compute (absorbed ws)).setWidth 16⟩) ∧
        ∀ e : Octet, ∃ t, serve (encode (.crcCheck e)) r.final = .next t ∧
          t.matchFlag = validate (absorbed ws) e ∧
          t.rsp = some ⟨false, if validate (absorbed ws) e then 0x0001 else 0x0000⟩

/-- R86: the octet step depends on `c xor b` only, through the table `T` as the spec lists it (V4). -/
def Obligations.OctetStepIsTheTableOfTheXor : Prop :=
  (∀ c b : Octet, crc8Octet c b = crcT (c ^^^ b) ∧ crc8Octet c b = crc8Octet b c ∧
    crc8Octet c b = crc8Octet (c ^^^ b) 0x00) ∧
  ∀ x : Octet, crcTableV4[x.toNat]? = some (crcT x)

/-- R87: the bit step is linear, hence `T` is, and `T` is fixed by its values on the eight one-bit octets. -/
def Obligations.ChecksumIsLinear : Prop :=
  (∀ a b : Octet, crc8Bit (a ^^^ b) = crc8Bit a ^^^ crc8Bit b) ∧ crc8Bit 0x00 = 0x00 ∧
  (∀ x y : Octet, crcT (x ^^^ y) = crcT x ^^^ crcT y) ∧ crcT 0x00 = 0x00 ∧
  crcT 0x01 = 0x31 ∧ crcT 0x02 = 0x62 ∧ crcT 0x04 = 0xC4 ∧ crcT 0x08 = 0xB9 ∧
  crcT 0x10 = 0x43 ∧ crcT 0x20 = 0x86 ∧ crcT 0x40 = 0x3D ∧ crcT 0x80 = 0x7A ∧
  ∀ x : Octet, crcT x =
    (List.range 8).foldl (fun v i => if x.getLsbD i then v ^^^ crcT (0x01#8 <<< i) else v) 0x00

/-- R88: the bit step has the stated inverse; bit 0 of its result is bit 7 of its argument; hence `T` and the octet step
in either argument are bijections, and `T[x]` is zero only at zero. -/
def Obligations.ChecksumStepsAreBijections : Prop :=
  (∀ c : Octet, crc8BitInv (crc8Bit c) = c) ∧ (∀ d : Octet, crc8Bit (crc8BitInv d) = d) ∧
  (∀ c : Octet, (crc8Bit c).getLsbD 0 = c.getLsbD 7) ∧
  Function.Bijective crcT ∧ (∀ x : Octet, crcT x = 0x00 → x = 0x00) ∧
  (∀ b : Octet, Function.Bijective fun c => crc8Octet c b) ∧ ∀ c : Octet, Function.Bijective fun b => crc8Octet c b

/-- R89: absorbing the current checksum, and nothing else, gives zero; so a sequence followed by its own checksum
computes to zero, and `validate` is that test. -/
def Obligations.AbsorbingTheChecksumGivesZero : Prop :=
  (∀ c : Octet, crc8Octet c c = 0x00) ∧ (∀ c b : Octet, crc8Octet c b = 0x00 → b = c) ∧
  (∀ bytes : List Octet, compute (bytes ++ [compute bytes]) = 0x00) ∧
  ∀ (bytes : List Octet) (e : Octet), validate bytes e = true ↔ compute (bytes ++ [e]) = 0x00

/-- R90: two sequences that differ in exactly one octet position have different checksums; so a group with one data
octet changed, or its checksum octet changed, never validates. -/
def Obligations.OneChangedOctetIsDetected : Prop :=
  (∀ (front back : List Octet) (b b' : Octet), b ≠ b' → compute (front ++ b :: back) ≠ compute (front ++ b' :: back)) ∧
  (∀ (hi lo ck hi' : Octet), validate [hi, lo] ck = true → hi' ≠ hi → validate [hi', lo] ck = false) ∧
  (∀ (hi lo ck lo' : Octet), validate [hi, lo] ck = true → lo' ≠ lo → validate [hi, lo'] ck = false) ∧
  ∀ (hi lo ck ck' : Octet), validate [hi, lo] ck = true → ck' ≠ ck → validate [hi, lo] ck' = false

/-- R91: the empty sequence, one zero octet and two zero octets have the three checksums of the rule, all different;
with an initial value of zero any number of zero octets would give zero. Nothing is said of longer runs of zero octets:
by R88 some run brings 0xFF back. -/
def Obligations.LeadingZeroOctetsAreSeen : Prop :=
  compute [] = 0xFF ∧ compute [0x00] = 0xAC ∧ compute [0x00, 0x00] = 0x81 ∧
  ∀ n : Nat, (List.replicate n (0x00 : Octet)).foldl crc8Octet 0x00 = 0x00

/-- R23: every 8-bit value of `CRC` is reachable from 0xFF, by exactly one octet. -/
def Obligations.EveryChecksumIsReachable : Prop :=
  (∀ x : Octet, crc8Octet 0xFF (0xFF ^^^ x) = crc8Octet 0x00 x) ∧ Function.Bijective (crc8Octet 0x00) ∧
  ∀ (s : State) (x : Octet), s.crc = 0xFF →
    ∃ b : Octet, (∃ t, exec (.crcAbsorb b) s = .next t ∧ t.crc = x) ∧
      ∀ b' t, exec (.crcAbsorb b') s = .next t → t.crc = x → b' = b

/-- R46: done twice, every operation but `CRC.ABSORB` leaves the state, and answers the response, of doing it once; from
every `CRC` some `CRC.ABSORB` does not. -/
def Obligations.OperationsButAbsorbAreIdempotent : Prop :=
  (∀ (i : Instr) (s t : State), (∀ b, i ≠ .crcAbsorb b) → exec i s = .next t → exec i t = .next t) ∧
  ∀ s : State, ∃ (b : Octet) (t : State), exec (.crcAbsorb b) s = .next t ∧ exec (.crcAbsorb b) t ≠ .next t

/-! ### The registers (10_state.md) -/

/-- R22, R24: the frame of every operation: `CRC` is written by `CRC.INIT` and `CRC.ABSORB` only, `MATCH` by these and
`CRC.CHECK` only, and nothing but the two registers and the response is ever written. -/
def Obligations.OperationsWriteOnlyTheirRegisters : Prop :=
  ∀ (i : Instr) (s t : State), exec i s = .next t →
    t.inFlight = s.inFlight ∧ t.inputs = s.inputs ∧ t.build = s.build ∧
    (i ≠ .crcInit → (∀ b, i ≠ .crcAbsorb b) → t.crc = s.crc) ∧
    (i ≠ .crcInit → (∀ b, i ≠ .crcAbsorb b) → (∀ e, i ≠ .crcCheck e) → t.matchFlag = s.matchFlag)

/-- R24: `MATCH` is read by no operation: changing it changes no response and no `CRC`. -/
def Obligations.MatchIsReadByNoOperation : Prop :=
  ∀ (w : ReqWord) (s : State) (m : Bool), ∃ t t' : State,
    serve w s = .next t ∧ serve w { s with matchFlag := m } = .next t' ∧ t'.rsp = t.rsp ∧ t'.crc = t.crc

/-- R22, R24, over every clock cycle, resets and latencies included: if the registers agree with the history they agree
with it after the next edge. `CRC` is `compute` of the octets since the last `CRC.INIT` or reset; `MATCH` is 1 exactly
when the last of `CRC.INIT`, `CRC.ABSORB`, `CRC.CHECK` and reset was a `CRC.CHECK` of that value. -/
def Obligations.RegistersAlwaysAgreeWithTheHistory : Prop :=
  ∀ (h : History) (s t : State), Agrees h s → step s = .next t → Agrees (h.afterEdge s) t

/-- R32: the reset values; the empty history agrees with them; and octets absorbed straight after reset, without a
`CRC.INIT`, give their `compute`. -/
def Obligations.ResetStateIsTheEmptySequence : Prop :=
  State.reset.crc = 0xFF ∧ State.reset.matchFlag = false ∧ Agrees .start State.reset ∧
  ∀ bytes : List Octet, ∃ r : Run,
    runRequests (bytes.map fun b => encode (.crcAbsorb b)) State.reset = .next r ∧ r.final.crc = compute bytes

/-- R31: the status outputs are the registers; they change only at an edge with reset or at which an operation that
writes the register completes; `CRC.READ` returns what `crc_q` shows. -/
def Obligations.StatusOutputsChangeOnlyOnCompletion : Prop :=
  (∀ s : State, s.outputs.crcQ = s.crc ∧ s.outputs.matchQ = s.matchFlag) ∧
  (∀ s t : State, step s = .next t →
    (t.outputs.crcQ ≠ s.outputs.crcQ → s.nextInput.rst = true ∨
      ∃ w, s.completing = some w ∧ (decode w = .ok .crcInit ∨ ∃ b, decode w = .ok (.crcAbsorb b))) ∧
    (t.outputs.matchQ ≠ s.outputs.matchQ → s.nextInput.rst = true ∨
      ∃ w, s.completing = some w ∧
        (decode w = .ok .crcInit ∨ (∃ b, decode w = .ok (.crcAbsorb b)) ∨ ∃ e, decode w = .ok (.crcCheck e)))) ∧
  ∀ s : State, exec .crcRead s = .next { s with rsp := some ⟨false, s.outputs.crcQ.setWidth 16⟩ }

/-! ### Encoding (30_encoding.md) -/

/-- R58: `rsp[16]` is `err` and `rsp[15:0]` is `data`. -/
def Obligations.ResponseWordLayout : Prop :=
  ∀ r : Response, r.pack.getLsbD 16 = r.err ∧ r.pack.extractLsb' 0 16 = r.data

/-- Words written out from R59 and R63 decode to the operations they stand for. -/
def Obligations.SpecWordsDecode : Prop :=
  decode 0b0000_00000000 = .ok .cmdSleep ∧ decode 0b0011_00000000 = .ok .cmdReadId ∧
  decode 0b0100_00000110 = .ok (.cmdMeas true true false) ∧ decode 0b0100_00000001 = .ok (.cmdMeas false false true) ∧
  decode 0b1000_00000000 = .ok .crcInit ∧ decode 0b1001_10111110 = .ok (.crcAbsorb 0xBE) ∧
  decode 0b1010_10010010 = .ok (.crcCheck 0x92) ∧ decode 0b1011_00000000 = .ok .crcRead

/-- R59, R60: decoding an operation's word gives the operation back, for every operand. -/
def Obligations.DecodeOfEncodeIsTheOperation : Prop := ∀ i : Instr, decode (encode i) = .ok i

/-- R59, R60: the other direction: a word that decodes is the word of what it decodes to, so no two words mean the same
operation. -/
def Obligations.EncodeOfDecodeIsTheWord : Prop := ∀ (w : ReqWord) (i : Instr), decode w = .ok i → encode i = w

/-- The decoder and the opcode table (opcode_table.json, R59) agree: a legal word lies in its operation's row, an
illegal word in no row, and no word in two rows. -/
def Obligations.DecodeAgreesWithTheOpcodeTable : Prop :=
  (∀ (w : ReqWord) (i : Instr), decode w = .ok i → i.row ∈ opcodeTable ∧ i.row.covers w = true) ∧
  (∀ (w : ReqWord) (e : Illegal), decode w = .error e → ∀ row ∈ opcodeTable, row.covers w = false) ∧
  ∀ w : ReqWord, (opcodeTable.filter fun row => row.covers w).length ≤ 1

/-- R61: a word is illegal exactly in the three cases named (and `illegalRequest` is that test); the decoder refuses 3570
of the 4096 words; an illegal word offered while the block is ready is accepted like any other, and is answered with
`err` = 1, `data` = 0x0000 and no state changed. -/
def Obligations.IllegalWordsAreExactlyTheThreeCases : Prop :=
  (∀ w : ReqWord, (∃ e, decode w = .error e) ↔
    (opField w ∈ [0x5#4, 0x6#4, 0x7#4, 0xC#4, 0xD#4, 0xE#4, 0xF#4] ∨
      (opField w ∈ [0x0#4, 0x1#4, 0x2#4, 0x3#4, 0x8#4, 0xB#4] ∧ argField w ≠ 0x00) ∨
      (opField w = 0x4 ∧ (argField w).extractLsb' 3 5 ≠ 0b00000#5))) ∧
  (∀ w : ReqWord, illegalRequest w = true ↔ ∃ e, decode w = .error e) ∧
  ((List.range 4096).filter fun n => !(decode (BitVec.ofNat 12 n)).toOption.isSome).length = 3570 ∧
  ∀ (w : ReqWord) (s : State), (∃ e, decode w = .error e) →
    (s.outputs.reqReady = true → s.nextInput = ⟨false, true, w⟩ → s.accepted = some w) ∧
    serve w s = .next { s with rsp := some ⟨true, 0x0000⟩ }

/-- R59, 95_test_vectors.md section 3: how many words of each opcode the decoder takes, and 526 in all. -/
def Obligations.LegalWordsByOpcode : Prop :=
  ((List.range 16).map fun op => ((List.range 256).filter fun arg =>
    (decode (requestWord (BitVec.ofNat 4 op) (BitVec.ofNat 8 arg))).toOption.isSome).length)
    = [1, 1, 1, 1, 8, 0, 0, 0, 1, 256, 256, 1, 0, 0, 0, 0] ∧
  ((List.range 4096).filter fun n => (decode (BitVec.ofNat 12 n)).toOption.isSome).length = 526

/-- The assembler (R63): the word of every line from its operands, and no word when an operand is out of its range. -/
def Obligations.AssemblerGivesTheWordOrRefuses : Prop :=
  assemble .cmdSleep = some [0x000] ∧ assemble .cmdWake = some [0x100] ∧ assemble .cmdReset = some [0x200] ∧
  assemble .cmdReadId = some [0x300] ∧ assemble .crcInit = some [0x800] ∧ assemble .crcRead = some [0xB00] ∧
  (∀ cs lp hf : Nat, assemble (.cmdMeas cs lp hf) =
    if cs < 2 ∧ lp < 2 ∧ hf < 2 then some [BitVec.ofNat 12 (0x400 + 4 * cs + 2 * lp + hf)] else none) ∧
  (∀ b : Nat, assemble (.crcAbsorb b) = if b < 256 then some [BitVec.ofNat 12 (0x900 + b)] else none) ∧
  (∀ e : Nat, assemble (.crcCheck e) = if e < 256 then some [BitVec.ofNat 12 (0xA00 + e)] else none) ∧
  ∀ w : Nat, assemble (.req w) = if w < 4096 then some [BitVec.ofNat 12 w] else none

/-- The pseudo-operations (R64): what the host reads after `CRC.COMPUTE`, `CRC.VALIDATE` and `CRC.GROUP`, from any
state, and the words of the eight `CMD.MEAS.*` names. -/
def Obligations.PseudoOperationsAnswerComputeAndValidate : Prop :=
  (∀ (bytes : List Octet) (s : State), ∃ ws r, assemble (.crcCompute (bytes.map BitVec.toNat)) = some ws ∧
    runRequests ws s = .next r ∧ r.responses.getLast? = some ⟨false, (compute bytes).setWidth 16⟩) ∧
  (∀ (bytes : List Octet) (e : Octet) (s : State),
    ∃ ws r, assemble (.crcValidate (bytes.map BitVec.toNat) e.toNat) = some ws ∧ runRequests ws s = .next r ∧
      r.responses.getLast? = some ⟨false, if validate bytes e then 0x0001 else 0x0000⟩ ∧
      r.final.matchFlag = validate bytes e) ∧
  (∀ hi lo ck : Nat, assemble (.crcGroup hi lo ck) = assemble (.crcValidate [hi, lo] ck)) ∧
  ∀ (lowpower stretch hfirst : Bool) (s : State), ∃ ws r, assemble (.measNamed lowpower stretch hfirst) = some ws ∧
    runRequests ws s = .next r ∧ r.responses = [⟨false, (measCase stretch lowpower hfirst).1⟩]

/-! ### Errors (60_exceptions.md) -/

/-- R92, `IllegalOp`: exactly the illegal words raise it; its whole next state; and at the ports the request is
consumed with nothing left of it but the response. -/
def Obligations.IllegalOpAnswersAndWritesNothing : Prop :=
  (∀ (w : ReqWord) (s : State), illegalRequest w = true →
    serve w s = .next { s with rsp := some ⟨true, 0x0000⟩ }) ∧
  (∀ (w : ReqWord) (s t : State), illegalRequest w = false → serve w s = .next t → t.rsp.any (·.err) = false) ∧
  ∀ (w : ReqWord) (s : State), illegalRequest w = true → s.completing = some w →
    step s = .next { s with inputs := s.inputs.tail, inFlight := none, rsp := some ⟨true, 0x0000⟩ }

/-- First clause, R93: no other error exists, every legal request is answered with `err` = 0. Second clause: no clock
cycle ends in a fault or a refusal, which the model reads from R93 with R122 (log 12, DEDUCED). -/
def Obligations.LegalRequestsNeverErr : Prop :=
  (∀ (w : ReqWord) (s : State), illegalRequest w = false →
    ∃ (t : State) (d : Word), serve w s = .next t ∧ t.rsp = some ⟨false, d⟩) ∧
  ∀ s : State, ∃ t, step s = .next t

/-- R98: the operations before an illegal request have taken full effect, it has taken none, and those after it run as
if it had not been sent. -/
def Obligations.IllegalRequestsAreAsIfNotSent : Prop :=
  ∀ (before after : List ReqWord) (w : ReqWord) (s : State), illegalRequest w = true →
    ∃ (a b : Run) (c d : List Response),
      runRequests (before ++ after) s = .next a ∧ runRequests (before ++ w :: after) s = .next b ∧
      c.length = before.length ∧ a.responses = c ++ d ∧ b.responses = c ++ ⟨true, 0x0000⟩ :: d ∧
      b.final.crc = a.final.crc ∧ b.final.matchFlag = a.final.matchFlag

/-! ### Reset, ports and handshake (70_reset_and_hazards.md) -/

/-- R114, R115: at every edge with `rst` = 1 the registers take their reset values, an operation in progress and a
request at that edge are dropped without a response, the block is ready in the first cycle in which `rst` is 0 again,
and nothing else changes; with both latencies 1 no operation can be in progress. -/
def Obligations.ResetEdgeWinsOverEverything : Prop :=
  (∀ s : State, s.nextInput.rst = true →
    s.accepted = none ∧
    ∃ t, step s = .next t ∧ t.crc = 0xFF ∧ t.matchFlag = false ∧ t.inFlight = none ∧ t.outputs.rspValid = false ∧
      (t.nextInput.rst = false → t.outputs.reqReady = true) ∧ t.inputs = s.inputs.tail ∧ t.build = s.build) ∧
  ∀ s : State, PortsOk s → s.build.latCmd = 1 → s.build.latCrc = 1 → s.inFlight = none

/-- At the edge at which its operation completes, a word that decodes to `i` is run by `exec i`, whether it was accepted
in this cycle (latency 1) or before; the cycle's inputs are taken away and nothing is in progress any more. That an
operation in progress is its word and a count, and is decoded and executed whole on the state at the completing edge, is
the model's reading (log 4, DEDUCED from R29, R46 and R120). -/
def Obligations.StepRunsTheDecodedOperation : Prop :=
  ∀ (s : State) (w : ReqWord) (i : Instr), decode w = .ok i → s.nextInput.rst = false →
    (s.inFlight = some ⟨w, 0⟩ →
      step s = exec i { s with inputs := s.inputs.tail, inFlight := none, rsp := none }) ∧
    (s.inFlight = none → s.nextInput.reqValid = true → s.nextInput.req = w → latency s.build w = 1 →
      step s = exec i { s with inputs := s.inputs.tail, inFlight := none, rsp := none })

/-- A word placed by `withFetchWord` is what the next step runs, from every state and in every build (log 7). -/
def Obligations.PlacedWordRunsNext : Prop :=
  ∀ (s : State) (nbits w : Nat) (i : Instr), decodeTableWord nbits w = some i →
    step (s.withFetchWord nbits w) = exec i { s with inFlight := none, rsp := none }

/-- R120 (its ports in one cycle): acceptance is `rst` = 0, `req_valid` = 1 and `req_ready` = 1; while `req_ready` = 0
the request port is ignored; a response stands for one cycle unless the next edge completes an operation. -/
def Obligations.RequestPortCountsOnlyWhenReady : Prop :=
  (∀ (s : State) (w : ReqWord), s.accepted = some w ↔
    s.nextInput.rst = false ∧ s.nextInput.reqValid = true ∧ s.outputs.reqReady = true ∧ s.nextInput.req = w) ∧
  (∀ (s : State) (v v' : Bool) (w w' : ReqWord) (rest : List PortInput), s.outputs.reqReady = false →
    step { s with inputs := ⟨false, v, w⟩ :: rest } = step { s with inputs := ⟨false, v', w'⟩ :: rest }) ∧
  ∀ s t : State, step s = .next t → (t.outputs.rspValid = true ↔ s.completing.isSome = true)

/-- R122: with no reset, `L` cycles after any acceptance the block has answered and is ready again; until then it is
busy, silent, and shows the old registers. Every request of a finite list is executed and answered once. -/
def Obligations.EveryRequestIsAnsweredAfterItsLatency : Prop :=
  (∀ (s : State) (w : ReqWord), s.accepted = some w →
    (∀ inp ∈ s.inputs.take (latency s.build w), inp.rst = false) →
    (∀ n, 0 < n → n < latency s.build w → ∃ u : PortRun, runCycles n s = .next u ∧
      u.final.outputs.reqReady = false ∧ u.final.outputs.rspValid = false ∧
      u.final.crc = s.crc ∧ u.final.matchFlag = s.matchFlag ∧ u.responses = []) ∧
    ∃ (t : State) (u : PortRun), serve w s = .next t ∧ runCycles (latency s.build w) s = .next u ∧
      u.accepted = [w] ∧ u.responses = t.rsp.toList ∧ u.final.outputs.reqReady = true ∧
      u.final.rsp = t.rsp ∧ t.rsp.isSome = true ∧ u.final.crc = t.crc ∧ u.final.matchFlag = t.matchFlag) ∧
  ∀ (ws : List ReqWord) (s : State), ∃ r : Run, runRequests ws s = .next r ∧ r.responses.length = ws.length

/-- R49, R121, R123: whatever the latencies and whatever the host drives, short of reset, what is seen on the ports is
the run of the accepted requests in order, each whole, one response each; at most the last of them is still to answer. -/
def Obligations.PortsServeRequestsInOrder : Prop :=
  ∀ (n : Nat) (s : State) (u : PortRun), s.inFlight = none → (∀ inp ∈ s.inputs.take n, inp.rst = false) →
    runCycles n s = .next u →
    ∃ (served : List ReqWord) (r : Run),
      u.accepted = served ++ (u.final.inFlight.map InFlight.req).toList ∧
      runRequests served s = .next r ∧ r.responses = u.responses ∧
      r.final.crc = u.final.crc ∧ r.final.matchFlag = u.final.matchFlag

/-- R15, R133: the responses and the final registers of a run are the same for every choice of latencies and every
timing of the requests. -/
def Obligations.ResultsDoNotDependOnLatency : Prop :=
  ∀ (n n' : Nat) (s s' : State) (u u' : PortRun),
    s.crc = s'.crc → s.matchFlag = s'.matchFlag → s.inFlight = none → s'.inFlight = none →
    (∀ inp ∈ s.inputs.take n, inp.rst = false) → (∀ inp ∈ s'.inputs.take n', inp.rst = false) →
    runCycles n s = .next u → runCycles n' s' = .next u' →
    u.final.inFlight = none → u'.final.inFlight = none → u.accepted = u'.accepted →
    u.responses = u'.responses ∧ u.final.crc = u'.final.crc ∧ u.final.matchFlag = u'.final.matchFlag

/-- R120, R121, R58: the ports' invariant is kept by every step. -/
def Obligations.PortsInvariantIsKept : Prop := ∀ s t : State, PortsOk s → step s = .next t → PortsOk t

/-- R114: after reset nothing is in progress and no response is offered, and the ports' invariant holds. -/
def Obligations.PortsInvariantAtReset : Prop :=
  State.reset.inFlight = none ∧ State.reset.rsp = none ∧ PortsOk State.reset

/-! ### The host's use of the block (R109 to R112) -/

/-- R110: the driver's verdict on a frame, from the block's responses and from any state: the two raw codes, in the
order `humidity_first` says, exactly when both groups are good, else `ChecksumFault`. R110 lets a host check the second
group or not when the first has failed. That `measureRequests` always checks it is the model's choice (log 11); the last
clause is the other host, which stops after the five requests up to the failed check. -/
def Obligations.MeasurementNeedsBothGroupsGood : Prop :=
  ∀ (cs lp hf : Bool) (f : RawFrame) (s : State),
    (∃ r : Run, runRequests (measureRequests cs lp hf f) s = .next r ∧
      measured hf f r.responses =
        if f.first.good = true ∧ f.second.good = true then
          (if hf then .codes f.second.code f.first.code else .codes f.first.code f.second.code)
        else .checksumFault) ∧
    (f.first.good = false → ∃ r : Run, runRequests ((measureRequests cs lp hf f).take 5) s = .next r ∧
      measured hf f r.responses = .checksumFault)

/-- R131 with R90: a good frame with exactly one of its six octets changed in transit never becomes a reading, for the
host of `measureRequests`, which always checks both groups (the model's choice, log 11). -/
def Obligations.OneCorruptedOctetNeverBecomesAReading : Prop :=
  ∀ (cs lp hf : Bool) (sent got : RawFrame) (k : Nat) (v : Octet) (s : State),
    sent.first.good = true → sent.second.good = true →
    k < 6 → sent.octets[k]? ≠ some v → got.octets = sent.octets.set k v →
    ∃ r : Run, runRequests (measureRequests cs lp hf got) s = .next r ∧ measured hf got r.responses = .checksumFault
end

