-- ==== Sys2Proof/Laws/Decode.lean ====
section
/-! SUPPORT. The fields of a request word and the word of its fields. -/

namespace Sys2Proof

@[simp] theorem opField_requestWord (op : Opcode) (arg : Octet) : opField (requestWord op arg) = op := by
  apply BitVec.eq_of_getLsbD_eq
  intro i hi
  simp only [opField, requestWord, BitVec.getLsbD_extractLsb', BitVec.getLsbD_append]
  simp [show i < 4 from hi]

@[simp] theorem argField_requestWord (op : Opcode) (arg : Octet) : argField (requestWord op arg) = arg := by
  apply BitVec.eq_of_getLsbD_eq
  intro i hi
  simp only [argField, requestWord, BitVec.getLsbD_extractLsb', BitVec.getLsbD_append]
  simp [show i < 8 from hi]

/-- A request word is its two fields. -/
theorem requestWord_fields (w : ReqWord) : requestWord (opField w) (argField w) = w := by
  apply BitVec.eq_of_getLsbD_eq
  intro i hi
  simp only [opField, argField, requestWord, BitVec.getLsbD_extractLsb', BitVec.getLsbD_append]
  by_cases h : i < 8
  · simp [h]
  · simp [h, show i - 8 < 4 by omega, show 8 + (i - 8) = i by omega]

theorem decodeZ_zero (i : Instr) : decodeZ 0x00 i = .ok i := rfl

theorem decodeZ_ne {arg : Octet} (h : arg ≠ 0x00) (i : Instr) : decodeZ arg i = .error .operandNotZero := by
  simpa [decodeZ] using h

end Sys2Proof
end

