-- ==== Sys2Proof/Laws/State.lean ====
section
/-! SUPPORT. One lemma per field per update of State, each true by unfolding the update once. -/

namespace Sys2Proof.Machine

variable (s : State)

@[simp] theorem State.writeCrc_crc (v : Octet) : (s.writeCrc v).crc = v := rfl
@[simp] theorem State.writeCrc_matchFlag (v : Octet) : (s.writeCrc v).matchFlag = s.matchFlag := rfl
@[simp] theorem State.writeCrc_inFlight (v : Octet) : (s.writeCrc v).inFlight = s.inFlight := rfl
@[simp] theorem State.writeCrc_rsp (v : Octet) : (s.writeCrc v).rsp = s.rsp := rfl
@[simp] theorem State.writeCrc_inputs (v : Octet) : (s.writeCrc v).inputs = s.inputs := rfl
@[simp] theorem State.writeCrc_build (v : Octet) : (s.writeCrc v).build = s.build := rfl

@[simp] theorem State.writeMatch_crc (m : Bool) : (s.writeMatch m).crc = s.crc := rfl
@[simp] theorem State.writeMatch_matchFlag (m : Bool) : (s.writeMatch m).matchFlag = m := rfl
@[simp] theorem State.writeMatch_inFlight (m : Bool) : (s.writeMatch m).inFlight = s.inFlight := rfl
@[simp] theorem State.writeMatch_rsp (m : Bool) : (s.writeMatch m).rsp = s.rsp := rfl
@[simp] theorem State.writeMatch_inputs (m : Bool) : (s.writeMatch m).inputs = s.inputs := rfl
@[simp] theorem State.writeMatch_build (m : Bool) : (s.writeMatch m).build = s.build := rfl

@[simp] theorem State.offer_crc (e : Bool) (d : Word) : (s.offer e d).crc = s.crc := rfl
@[simp] theorem State.offer_matchFlag (e : Bool) (d : Word) : (s.offer e d).matchFlag = s.matchFlag := rfl
@[simp] theorem State.offer_inFlight (e : Bool) (d : Word) : (s.offer e d).inFlight = s.inFlight := rfl
@[simp] theorem State.offer_rsp (e : Bool) (d : Word) : (s.offer e d).rsp = some ⟨e, d⟩ := rfl
@[simp] theorem State.offer_inputs (e : Bool) (d : Word) : (s.offer e d).inputs = s.inputs := rfl
@[simp] theorem State.offer_build (e : Bool) (d : Word) : (s.offer e d).build = s.build := rfl

@[simp] theorem State.applyReset_crc : (s.applyReset).crc = 0xFF := rfl
@[simp] theorem State.applyReset_matchFlag : (s.applyReset).matchFlag = false := rfl
@[simp] theorem State.applyReset_inFlight : (s.applyReset).inFlight = none := rfl
@[simp] theorem State.applyReset_rsp : (s.applyReset).rsp = none := rfl
@[simp] theorem State.applyReset_inputs : (s.applyReset).inputs = s.inputs := rfl
@[simp] theorem State.applyReset_build : (s.applyReset).build = s.build := rfl

@[simp] theorem State.popInput_crc : (s.popInput).crc = s.crc := rfl
@[simp] theorem State.popInput_matchFlag : (s.popInput).matchFlag = s.matchFlag := rfl
@[simp] theorem State.popInput_inFlight : (s.popInput).inFlight = s.inFlight := rfl
@[simp] theorem State.popInput_rsp : (s.popInput).rsp = s.rsp := rfl
@[simp] theorem State.popInput_inputs : (s.popInput).inputs = s.inputs.tail := rfl
@[simp] theorem State.popInput_build : (s.popInput).build = s.build := rfl

@[simp] theorem State.quiet_crc : (s.quiet).crc = s.crc := rfl
@[simp] theorem State.quiet_matchFlag : (s.quiet).matchFlag = s.matchFlag := rfl
@[simp] theorem State.quiet_inFlight : (s.quiet).inFlight = none := rfl
@[simp] theorem State.quiet_rsp : (s.quiet).rsp = none := rfl
@[simp] theorem State.quiet_inputs : (s.quiet).inputs = s.inputs := rfl
@[simp] theorem State.quiet_build : (s.quiet).build = s.build := rfl

end Sys2Proof.Machine
end

