-- ==== Sys2Proof/Laws/Ops.lean ====
section
/-! SUPPORT. What the shared operations and the operations' meanings answer, said once. -/

namespace Sys2Proof.Machine

@[simp] theorem respond_eq (e : Bool) (d : Word) (s : State) : respond e d s = .next (s.offer e d) := rfl

@[simp] theorem raiseIllegalOp_eq (s : State) : raiseIllegalOp s = .next (s.offer true 0x0000) := rfl

/-- The fields no operation touches are carried over, and a response is offered. -/
structure Answered (s t : State) : Prop where
  inFlight_eq : t.inFlight = s.inFlight
  inputs_eq : t.inputs = s.inputs
  build_eq : t.build = s.build
  rsp_isSome : t.rsp.isSome = true

/-- Every operation answers a next state and touches only `CRC`, `MATCH` and the response. -/
theorem exec_answered (i : Instr) (s : State) : ∃ t, exec i s = .next t ∧ Answered s t := by
  cases i <;> exact ⟨_, rfl, rfl, rfl, rfl, rfl⟩

theorem serve_of_ok {w : ReqWord} {i : Instr} (h : decode w = .ok i) (s : State) : serve w s = exec i s := by
  simp [serve, h]

theorem serve_of_error {w : ReqWord} {e : Illegal} (h : decode w = .error e) (s : State) :
    serve w s = .next (s.offer true 0x0000) := by
  simp [serve, h]

/-- Every request is answered, legal or not. -/
theorem serve_answered (w : ReqWord) (s : State) : ∃ t, serve w s = .next t ∧ Answered s t := by
  cases h : decode w with
  | ok i => rw [serve_of_ok h]; exact exec_answered i s
  | error e => exact ⟨_, serve_of_error h s, rfl, rfl, rfl, rfl⟩

@[simp] theorem runRequests_nil (s : State) : runRequests [] s = .next ⟨s, []⟩ := rfl

/-- The run after a request that was answered. -/
theorem runRequests_cons {w : ReqWord} {ws : List ReqWord} {s t : State} {r : Run}
    (h : serve w s = .next t) (hr : runRequests ws t = .next r) :
    runRequests (w :: ws) s = .next ⟨r.final, t.rsp.toList ++ r.responses⟩ := by
  simp [runRequests, h, hr]

/-- A run of one request more splits into its first request and the rest. -/
theorem runRequests_cons_inv {w : ReqWord} {ws : List ReqWord} {s : State} {r : Run}
    (h : runRequests (w :: ws) s = .next r) :
    ∃ t r', serve w s = .next t ∧ runRequests ws t = .next r' ∧ r = ⟨r'.final, t.rsp.toList ++ r'.responses⟩ := by
  obtain ⟨t, ht, -⟩ := serve_answered w s
  simp only [runRequests, ht] at h
  cases hr : runRequests ws t with
  | next r' => rw [hr] at h; cases h; exact ⟨t, r', ht, hr, rfl⟩
  | fault x => cases x
  | refused x => rw [hr] at h; cases h

/-- The two registers agree: all that one operation can learn of the past (R20). -/
def SameRegisters (s t : State) : Prop := t.crc = s.crc ∧ t.matchFlag = s.matchFlag

/-- A request's response and effect depend on the two registers only. -/
theorem serve_congr (w : ReqWord) {s s' t : State} (h : SameRegisters s s') (e : serve w s = .next t) :
    ∃ t', serve w s' = .next t' ∧ SameRegisters t t' ∧ t'.rsp = t.rsp := by
  obtain ⟨hc, hm⟩ := h
  cases hd : decode w with
  | error x => rw [serve_of_error hd] at e ⊢; cases e; exact ⟨_, rfl, ⟨hc, hm⟩, rfl⟩
  | ok i =>
    rw [serve_of_ok hd] at e ⊢
    cases i <;> cases e <;> refine ⟨_, rfl, ⟨?_, ?_⟩, ?_⟩ <;> simp [hc, hm]

/-- A run's responses and final registers depend on the two registers only. -/
theorem runRequests_congr (ws : List ReqWord) {s s' : State} (h : SameRegisters s s') {r : Run}
    (e : runRequests ws s = .next r) :
    ∃ r', runRequests ws s' = .next r' ∧ SameRegisters r.final r'.final ∧ r'.responses = r.responses := by
  induction ws generalizing s s' r with
  | nil => cases e; exact ⟨_, rfl, h, rfl⟩
  | cons w ws ih =>
    obtain ⟨t, q, ht, hq, rfl⟩ := runRequests_cons_inv e
    obtain ⟨t', ht', ha, hr⟩ := serve_congr w h ht
    obtain ⟨q', hq', hb, hc⟩ := ih ha hq
    exact ⟨_, runRequests_cons ht' hq', hb, by simp [hr, hc]⟩

/-- Two runs one after the other. -/
theorem runRequests_append (xs ys : List ReqWord) {s : State} {a b : Run}
    (h : runRequests xs s = .next a) (h' : runRequests ys a.final = .next b) :
    runRequests (xs ++ ys) s = .next ⟨b.final, a.responses ++ b.responses⟩ := by
  induction xs generalizing s a with
  | nil => cases h; simpa using h'
  | cons w ws ih =>
    obtain ⟨t, q, ht, hq, rfl⟩ := runRequests_cons_inv h
    simpa using runRequests_cons ht (ih hq h')

/-- The flag in the `data` field is 0x0001 or 0x0000. -/
theorem matchData_eq (m : Bool) : matchData m = if m then 0x0001 else 0x0000 := by cases m <;> rfl

end Sys2Proof.Machine
end

