-- ==== Sys2Proof/Laws/PerInstr.lean ====
section
/-! SUPPORT. Per operation: its request word lies in its row of the opcode table (spec/opcode_table.json). -/

namespace Sys2Proof.Laws.RowCovers

/-- The encoded word has the row's bits under the row's mask. -/
def Statement (i : Instr) : Prop := i.row.covers (encode i) = true

/-- The mask 0xF00 keeps `op` and drops `arg`. -/
theorem masked_high (op : Opcode) (arg : Octet) :
    TableRow.covers ⟨requestWord op 0x00, 0xF00⟩ (requestWord op arg) = true := by
  simp only [TableRow.covers, requestWord, beq_iff_eq]
  rw [show (0xF00 : ReqWord) = (0xF : Opcode) ++ (0x00 : Octet) from rfl, BitVec.and_append]
  congr 1
  · exact BitVec.and_allOnes
  · exact BitVec.and_zero

theorem cmdSleep : Statement .cmdSleep := rfl
theorem cmdWake : Statement .cmdWake := rfl
theorem cmdReset : Statement .cmdReset := rfl
theorem cmdReadId : Statement .cmdReadId := rfl
theorem cmdMeas (cs lp hf : Bool) : Statement (.cmdMeas cs lp hf) := by
  cases cs <;> cases lp <;> cases hf <;> rfl
theorem crcInit : Statement .crcInit := rfl
theorem crcAbsorb (b : Octet) : Statement (.crcAbsorb b) := masked_high 0x9 b
theorem crcCheck (e : Octet) : Statement (.crcCheck e) := masked_high 0xA e
theorem crcRead : Statement .crcRead := rfl

end Sys2Proof.Laws.RowCovers
end

