-- ==== Sys2Proof/Laws/Ports.lean ====
section
/-! SUPPORT. Everything one clock cycle can do, said once. -/

namespace Sys2Proof.Machine

theorem step_eq_cycle (s : State) : step s = cycle s := rfl

theorem latency_eq (b : Config.Build) (w : ReqWord) : latency b w = extraCycles b w + 1 := by
  unfold latency extraCycles Config.Build.latCrc Config.Build.latCmd
  split <;> rfl

/-- A waiting operation at an edge: `w` is in progress, or has just been accepted, and `n + 1` edges are to come. -/
def Waits (s : State) (w : ReqWord) (n : Nat) : Prop :=
  s.inFlight = some ⟨w, n⟩ ∨
    (s.inFlight = none ∧ s.nextInput.reqValid = true ∧ s.nextInput.req = w ∧ extraCycles s.build w = n)

/-- One cycle, case by case: reset; the edge at which an operation completes; an edge at which it only waits; nothing
to do. -/
theorem cycle_cases (s : State) :
    (s.nextInput.rst = true ∧ cycle s = .next s.popInput.applyReset) ∨
    (∃ w, s.nextInput.rst = false ∧ s.completing = some w ∧ Waits s w 0 ∧ cycle s = serve w s.popInput.quiet) ∨
    (∃ w n, s.nextInput.rst = false ∧ s.completing = none ∧ Waits s w (n + 1) ∧
      cycle s = .next { s.popInput with inFlight := some ⟨w, n⟩, rsp := none }) ∨
    (s.nextInput.rst = false ∧ s.completing = none ∧ s.inFlight = none ∧ s.nextInput.reqValid = false ∧
      cycle s = .next s.popInput.quiet) := by
  cases hr : s.nextInput.rst with
  | true => exact .inl ⟨rfl, by simp [cycle, edge, hr]⟩
  | false =>
    right
    cases hf : s.inFlight with
    | some f =>
      obtain ⟨w, n⟩ := f
      cases n with
      | zero =>
        exact .inl ⟨w, rfl, by simp [State.completing, hr, hf], .inl hf, by simp [cycle, edge, hr, hf, advance]⟩
      | succ n =>
        exact .inr (.inl ⟨w, n, rfl, by simp [State.completing, hr, hf], .inl hf,
          by simp [cycle, edge, hr, hf, advance]⟩)
    | none =>
      cases hv : s.nextInput.reqValid with
      | false =>
        exact .inr (.inr ⟨rfl, by simp [State.completing, hr, hf, hv], rfl, rfl, by simp [cycle, edge, hr, hf, hv]⟩)
      | true =>
        cases he : extraCycles s.build s.nextInput.req with
        | zero =>
          exact .inl ⟨s.nextInput.req, rfl, by simp [State.completing, hr, hf, hv, he], .inr ⟨hf, hv, rfl, he⟩,
            by simp [cycle, edge, hr, hf, hv, he, advance]⟩
        | succ n =>
          exact .inr (.inl ⟨s.nextInput.req, n, rfl, by simp [State.completing, hr, hf, hv, he],
            .inr ⟨hf, hv, rfl, he⟩, by simp [cycle, edge, hr, hf, hv, he, advance]⟩)

/-- A cycle's next state and the rest of the cycles. -/
theorem runCycles_succ {n : Nat} {s t : State} {r : PortRun} (h : cycle s = .next t) (hr : runCycles n t = .next r) :
    runCycles (n + 1) s = .next ⟨r.final, s.accepted.toList ++ r.accepted, t.rsp.toList ++ r.responses⟩ := by
  simp [runCycles, h, hr]

/-- The first of several cycles and the rest. -/
theorem runCycles_succ_inv {n : Nat} {s : State} {u : PortRun} (h : runCycles (n + 1) s = .next u) :
    ∃ t v, cycle s = .next t ∧ runCycles n t = .next v ∧
      u = ⟨v.final, s.accepted.toList ++ v.accepted, t.rsp.toList ++ v.responses⟩ := by
  simp only [runCycles] at h
  cases hc : cycle s with
  | next t =>
    rw [hc] at h
    simp only at h
    cases hr : runCycles n t with
    | next v => rw [hr] at h; cases h; exact ⟨t, v, rfl, hr, rfl⟩
    | fault x => cases x
    | refused x => rw [hr] at h; cases h
  | fault x => cases x
  | refused x => rw [hc] at h; cases h

end Sys2Proof.Machine
end

