-- ==== Sys2Proof/Tests/Slice0.lean ====
section
/-! SUPPORT. The model's own tests. Every expected value is written out from spec/ (mostly 95_test_vectors.md, whose
names E, K, X, Z, V and S are cited), and the witnesses that the statements' hypotheses can be met. -/

namespace Sys2Proof.Tests

open Sys2Proof Sys2Proof.Machine Sys2Proof.Safety

/-- A state with these registers, both latencies 1, and nothing on the ports. -/
def at_ (crc : Octet) (m : Bool) : State := { State.reset with crc := crc, matchFlag := m }

/-- The state an outcome goes on to. -/
def nextOf : Result → Option State
  | .next s => some s
  | .fault _ => none
  | .refused _ => none

/-- The registers and the response after one request. -/
def after (w : ReqWord) (s : State) : Option (Octet × Bool × Option Response) :=
  (nextOf (serve w s)).map fun t => (t.crc, t.matchFlag, t.rsp)

/-! ### Ill-formed lines are refused, one for each check (R63) -/

theorem test_flag_out_of_range : (Line.cmdMeas 2 0 0).wellFormed = false := by decide
theorem test_second_flag_out_of_range : (Line.cmdMeas 0 2 0).wellFormed = false := by decide
theorem test_third_flag_out_of_range : (Line.cmdMeas 1 1 2).wellFormed = false := by decide
theorem test_absorb_out_of_range : (Line.crcAbsorb 256).wellFormed = false := by decide
theorem test_check_out_of_range : (Line.crcCheck 256).wellFormed = false := by decide
theorem test_req_out_of_range : (Line.req 4096).wellFormed = false := by decide
theorem test_compute_out_of_range : (Line.crcCompute [0, 256]).wellFormed = false := by decide
theorem test_validate_out_of_range : (Line.crcValidate [255] 256).wellFormed = false := by decide
theorem test_group_out_of_range : (Line.crcGroup 0 256 0).wellFormed = false := by decide
theorem test_edges_in_range : (Line.crcValidate [0, 255] 255).wellFormed = true := by decide

/-! ### Decoding: words written out from R59; illegal words X1 to X12 -/

theorem test_decode_sleep : decode 0b000000000000 = .ok .cmdSleep := by decide
theorem test_decode_wake : decode 0b000100000000 = .ok .cmdWake := by decide
theorem test_decode_reset : decode 0b001000000000 = .ok .cmdReset := by decide
theorem test_decode_readid : decode 0b001100000000 = .ok .cmdReadId := by decide
theorem test_decode_meas_cs_is_bit_2 : decode 0b010000000100 = .ok (.cmdMeas true false false) := by decide
theorem test_decode_meas_hf_is_bit_0 : decode 0b010000000001 = .ok (.cmdMeas false false true) := by decide
theorem test_decode_init : decode 0b100000000000 = .ok .crcInit := by decide
theorem test_decode_absorb : decode 0b100110111110 = .ok (.crcAbsorb 0xBE) := by decide
theorem test_decode_check : decode 0b101010010011 = .ok (.crcCheck 0x93) := by decide
theorem test_decode_read : decode 0b101100000000 = .ok .crcRead := by decide
theorem test_illegal_words : [0x001, 0x180, 0x2FF, 0x301, 0x408, 0x480, 0x500, 0x7FF, 0x801, 0xB01, 0xC00, 0xFFF].all
    illegalRequest = true := by decide
theorem test_decode_illegal_operand : decode 0x801 = .error .operandNotZero := by decide
theorem test_decode_illegal_flags : decode 0x408 = .error .measHighBits := by decide
theorem test_decode_reserved : decode 0x7FF = .error .reservedOpcode := by decide
theorem test_nearest_legal_words : [0x000, 0x100, 0x200, 0x300, 0x407, 0x400, 0x800, 0xB00, 0xAFF].all
    (fun w => !illegalRequest w) = true := by decide
theorem test_table_word : decodeTableWord 16 0x0406 = some (.cmdMeas true true false) := by decide
theorem test_table_word_too_wide : decodeTableWord 16 0x1000 = none := by decide

/-! ### The checksum functions: V1 to V4, S1, S7 -/

theorem test_bit_steps : [0x00, 0x01, 0x40, 0x7F, 0x80, 0x81, 0x98, 0xC0, 0xFF].map crc8Bit
    = [0x00, 0x02, 0x80, 0xFE, 0x31, 0x33, 0x01, 0xB1, 0xCF] := by decide
theorem test_octet_steps : [crc8Octet 0xFF 0xBE, crc8Octet 0x0C 0xEF, crc8Octet 0xFF 0x00, crc8Octet 0xFF 0x64]
    = [0x0C, 0x92, 0xAC, 0xD3] := by decide
theorem test_compute_vectors : [compute [], compute [0x12, 0x34], compute [0xEF, 0xBE], compute [0x64, 0x62],
    compute [0x5C, 0x32], compute [0xBE, 0xEF, 0x92]] = [0xFF, 0x37, 0xCE, 0x8E, 0x75, 0x00] := by decide +kernel
theorem test_compute_digits : compute [0x31, 0x32, 0x33, 0x34, 0x35, 0x36, 0x37, 0x38, 0x39] = 0xF7 := by decide +kernel
theorem test_table_V4_length : crcTableV4.length = 256 := by decide +kernel
theorem test_table_V4_last_row : (crcTableV4.drop 240) = [0xF0, 0xF1, 0xF2, 0xF3, 0xF4, 0xF5, 0xF6, 0xF7,
    0xF8, 0xF9, 0xFA, 0xFB, 0xFC, 0xFD, 0xFE, 0xFF].map crcT := by decide

/-! ### One operation: E1 to E12 and K1 to K14 -/

theorem test_E1 : after 0x000 (at_ 0x5A true) = some (0x5A, true, some ⟨false, 0xB098⟩) := by decide
theorem test_E2 : after 0x100 (at_ 0x5A true) = some (0x5A, true, some ⟨false, 0x3517⟩) := by decide
theorem test_E3 : after 0x200 (at_ 0x5A true) = some (0x5A, true, some ⟨false, 0x805D⟩) := by decide
theorem test_E4 : after 0x300 (at_ 0x5A true) = some (0x5A, true, some ⟨false, 0xEFC8⟩) := by decide
theorem test_E5_to_E12 : (List.range 8).map (fun k => (after (0x400 + BitVec.ofNat 12 k) (at_ 0x5A true)))
    = [0x7866, 0x58E0, 0x609C, 0x401A, 0x7CA2, 0x5C24, 0x6458, 0x44DE].map
      (fun d => some (0x5A, true, some ⟨false, d⟩)) := by decide
theorem test_K1 : after 0x800 (at_ 0x92 true) = some (0xFF, false, some ⟨false, 0x00FF⟩) := by decide
theorem test_K4 : after 0x9EF (at_ 0x0C false) = some (0x92, false, some ⟨false, 0x0092⟩) := by decide
theorem test_K5 : after 0x900 (at_ 0xFF true) = some (0xAC, false, some ⟨false, 0x00AC⟩) := by decide
theorem test_K9 : after 0xA92 (at_ 0x92 false) = some (0x92, true, some ⟨false, 0x0001⟩) := by decide
theorem test_K10 : after 0xA93 (at_ 0x92 true) = some (0x92, false, some ⟨false, 0x0000⟩) := by decide
theorem test_K12 : after 0xB00 (at_ 0x92 true) = some (0x92, true, some ⟨false, 0x0092⟩) := by decide
theorem test_X5 : after 0x408 (at_ 0x5A true) = some (0x5A, true, some ⟨true, 0x0000⟩) := by decide
theorem test_X11 : after 0xC00 (at_ 0x5A true) = some (0x5A, true, some ⟨true, 0x0000⟩) := by decide
theorem test_pack_error : Response.pack ⟨true, 0x0000⟩ = 0x10000 := by decide
theorem test_wire_wake : wire 0x3517 = (0x35, 0x17) := by decide

/-! ### One clock cycle: Z1 and the port trace of 95_test_vectors.md section 4 -/

/-- The state in one cycle, with what the host drives in it. -/
def driven (s : State) (rst v : Bool) (w : ReqWord) : State := { s with inputs := [⟨rst, v, w⟩] }

theorem test_Z1 : (nextOf (step (driven (at_ 0x92 true) true true 0x9BE))).map State.outputs
    = some ⟨true, false, none, 0xFF, false⟩ := by decide
theorem test_trace_cycle_1 : (nextOf (step (driven State.reset false true 0x9BE))).map State.outputs
    = some ⟨true, true, some 0x0000C, 0x0C, false⟩ := by decide
theorem test_trace_cycle_4 : (nextOf (step (driven (at_ 0x92 true) false false 0x000))).map State.outputs
    = some ⟨true, false, none, 0x92, true⟩ := by decide
theorem test_trace_cycle_5 : (nextOf (step (driven (at_ 0x92 true) false true 0x801))).map State.outputs
    = some ⟨true, true, some 0x10000, 0x92, true⟩ := by decide

/-- A block whose `LAT_CRC` is 8, as in the note under that trace. -/
def slow : State := { State.reset with build := ⟨0, 7⟩ }

theorem test_slow_accepts : (nextOf (step (driven slow false true 0x9BE))).map
    (fun t => (t.inFlight, t.outputs.reqReady, t.crc)) = some (some ⟨0x9BE, 6⟩, false, 0xFF) := by decide
theorem test_slow_completes : (nextOf (step { slow with inFlight := some ⟨0x9BE, 0⟩ })).map State.outputs
    = some ⟨true, true, some 0x0000C, 0x0C, false⟩ := by decide
theorem test_reset_drops_operation : (nextOf (step (driven { slow with inFlight := some ⟨0x9BE, 0⟩ } true false 0))).map
    State.outputs = some ⟨true, false, none, 0xFF, false⟩ := by decide
theorem test_fetch_word_after_reset : (nextOf (step (State.reset.withFetchWord 16 0x0407))).map (·.rsp)
    = some (some ⟨false, 0x44DE⟩) := by decide
theorem test_fetch_word_slow : (nextOf (step (slow.withFetchWord 16 0x0900))).map (·.crc) = some 0xAC := by decide

/-! ### The assembler: R63, R64 -/

theorem test_assemble_meas : assemble (.cmdMeas 1 1 0) = some [0x406] := by decide
theorem test_assemble_refuses : assemble (.crcCheck 256) = none := by decide
theorem test_assemble_group : assemble (.crcGroup 0xBE 0xEF 0x92) = some [0x800, 0x9BE, 0x9EF, 0xA92] := by decide
theorem test_assemble_named : assemble (.measNamed true false true) = some [0x403] := by decide
theorem test_read_meas : readLine "CMD.MEAS 1, 0b1, 0 ; a comment".toList = some (some (.cmdMeas 1 1 0)) := by decide
theorem test_read_hex : readLine "  CRC.ABSORB 0xBE".toList = some (some (.crcAbsorb 0xBE)) := by decide
theorem test_read_validate : readLine "CRC.VALIDATE 0xBE, 239 ; 0x92 ; good".toList
    = some (some (.crcValidate [0xBE, 0xEF] 0x92)) := by decide
theorem test_read_comment : readLine "; nothing here".toList = some none := by decide
theorem test_read_unknown : readLine "CRC.XOR 1".toList = none := by decide
theorem test_read_missing_operand : readLine "CRC.GROUP 1, 2".toList = none := by decide

/-! ### The host's use: programs P2 and P3 of 95_test_vectors.md, from their responses -/

theorem test_good_frame : measured false ⟨⟨0x64, 0x62, 0x8E⟩, ⟨0x5C, 0x32, 0x75⟩⟩
    ([0x7866, 0x00FF, 0x00D3, 0x008E, 0x0001, 0x00FF, 0x00AF, 0x0075, 0x0001].map (⟨false, ·⟩))
    = .codes 0x6462 0x5C32 := by decide
theorem test_corrupted_frame : measured true ⟨⟨0x5C, 0x32, 0x75⟩, ⟨0x64, 0x63, 0x8E⟩⟩
    ([0x58E0, 0x00FF, 0x00AF, 0x0075, 0x0001, 0x00FF, 0x00D3, 0x00BF, 0x0000].map (⟨false, ·⟩))
    = .checksumFault := by decide

/-! ### Witnesses: the hypotheses of the statements can be met, at the edges of their ranges -/

theorem witness_operand_not_zero : ((0x01 : Octet) ≠ 0x00) ∧ (0xFF : Octet) ≠ 0x00 := by decide
theorem witness_meas_high_bits : (0x08 : Octet).extractLsb' 3 5 ≠ 0b00000#5 ∧ (0x80 : Octet).extractLsb' 3 5 ≠ 0b00000#5 := by
  decide
theorem witness_meas_index : (measIndex true true true).val = 4 + 4 * true.toNat + 2 * true.toNat + true.toNat := by decide
theorem witness_command_words : isCommand 0x000 = true ∧ isCommand 0x407 = true := by decide
theorem witness_equal_command_responses : ∃ t t' : State, serve 0x407 (at_ 1 true) = .next t ∧
    serve 0x407 (at_ 2 false) = .next t' ∧ t.rsp = t'.rsp := ⟨_, _, rfl, rfl, rfl⟩
theorem witness_select_fixed : isCommand 0x300 = true ∧ (3 : Fin 12).val = (if (opField 0x300).getLsbD 2
    then 4 + ((argField 0x300).extractLsb' 0 3).toNat else ((opField 0x300).extractLsb' 0 2).toNat) := by decide
theorem witness_select_meas : isCommand 0x407 = true ∧ (11 : Fin 12).val = (if (opField 0x407).getLsbD 2
    then 4 + ((argField 0x407).extractLsb' 0 3).toNat else ((opField 0x407).extractLsb' 0 2).toNat) := by decide
theorem witness_quiet_cycle : slow.nextInput.rst = false ∧ slow.completing = none ∧ ∃ t, step slow = .next t :=
  ⟨rfl, rfl, _, rfl⟩
theorem witness_check_equal_and_not : (at_ 0x92 false).crc = 0x92 ∧ (at_ 0x92 false).crc ≠ 0x93 := by decide
theorem witness_no_init_among : ∀ w ∈ [0x9BE, 0x000, 0xA92, 0xB00, (0xC00 : ReqWord)], decode w ≠ .ok .crcInit := by decide
theorem witness_zero_of_table : crcT 0x00 = 0x00 := by decide
theorem witness_zero_of_step : crc8Octet 0x37 0x37 = 0x00 := by decide
theorem witness_changed_octet : (0x62 : Octet) ≠ 0x63 ∧ validate [0x64, 0x62] 0x8E = true ∧ (0x65 : Octet) ≠ 0x64 ∧
    (0x8F : Octet) ≠ 0x8E := by decide +kernel
theorem witness_crc_initial : State.reset.crc = 0xFF := by decide
theorem witness_reachable : ∃ t, exec (.crcAbsorb 0xBE) State.reset = .next t ∧ t.crc = 0x0C := ⟨_, rfl, rfl⟩
theorem witness_not_absorb : (∀ b, Instr.crcInit ≠ .crcAbsorb b) ∧ ∃ t, exec .crcInit (at_ 0x92 true) = .next t :=
  ⟨fun _ h => (nomatch h), _, rfl⟩
theorem witness_writes_neither : Instr.crcRead ≠ .crcInit ∧ (∀ b, Instr.crcRead ≠ .crcAbsorb b) ∧
    (∀ e, Instr.crcRead ≠ .crcCheck e) ∧ ∃ t, exec .crcRead (at_ 0x92 true) = .next t :=
  ⟨fun h => (nomatch h), fun _ h => (nomatch h), fun _ h => (nomatch h), _, rfl⟩
theorem witness_agrees_and_steps : Agrees ⟨[0xBE, 0xEF], some 0x92⟩ (driven (at_ 0x92 true) false true 0x900) ∧
    ∃ t, step (driven (at_ 0x92 true) false true 0x900) = .next t := ⟨⟨by decide +kernel, by decide +kernel⟩, _, rfl⟩
theorem witness_outputs_change : ∃ t, step (driven (at_ 0x92 true) false true 0x900) = .next t ∧
    t.outputs.crcQ ≠ 0x92 ∧ t.outputs.matchQ ≠ true := ⟨_, rfl, by decide, by decide⟩
theorem witness_decodes : decode 0x407 = .ok (.cmdMeas true true true) ∧ decode 0xFFF = .error .reservedOpcode := by decide
theorem witness_illegal_and_legal : illegalRequest 0x408 = true ∧ illegalRequest 0x407 = false := by decide
theorem witness_illegal_completes : illegalRequest 0xFFF = true ∧
    (driven (at_ 0x5A true) false true 0xFFF).completing = some 0xFFF := by decide
theorem witness_legal_is_served : illegalRequest 0xAFF = false ∧ ∃ t, serve 0xAFF State.reset = .next t := ⟨by decide, _, rfl⟩
theorem witness_reset_edge : (driven slow true true 0x9BE).nextInput.rst = true := by decide
theorem witness_both_latencies_one : PortsOk State.reset ∧ State.reset.build.latCmd = 1 ∧ State.reset.build.latCrc = 1 :=
  ⟨⟨fun _ => rfl, rfl, rfl⟩, rfl, rfl⟩
theorem witness_step_runs_in_flight : decode 0x9BE = .ok (.crcAbsorb 0xBE) ∧
    { slow with inFlight := some ⟨0x9BE, 0⟩ }.nextInput.rst = false ∧
    { slow with inFlight := some ⟨0x9BE, 0⟩ }.inFlight = some ⟨0x9BE, 0⟩ := ⟨rfl, rfl, rfl⟩
theorem witness_step_runs_accepted : decode 0x407 = .ok (.cmdMeas true true true) ∧
    (driven State.reset false true 0x407).nextInput = ⟨false, true, 0x407⟩ ∧
    (driven State.reset false true 0x407).inFlight = none ∧ latency State.reset.build 0x407 = 1 := by decide
theorem witness_placed_word : decodeTableWord 12 0xAFF = some (.crcCheck 0xFF) := by decide
theorem witness_busy_block : { slow with inFlight := some ⟨0x9BE, 3⟩ }.outputs.reqReady = false ∧
    ∃ t, step { slow with inFlight := some ⟨0x9BE, 3⟩ } = .next t := ⟨rfl, _, rfl⟩
theorem witness_accepted : (driven slow false true 0x9BE).accepted = some 0x9BE ∧
    (∀ inp ∈ (driven slow false true 0x9BE).inputs.take (latency slow.build 0x9BE), inp.rst = false) ∧
    0 < 7 ∧ 7 < latency slow.build 0x9BE := by decide
theorem witness_accepted_at_once : (driven State.reset false true 0x9BE).accepted = some 0x9BE ∧
    (∀ inp ∈ (driven State.reset false true 0x9BE).inputs.take (latency State.reset.build 0x9BE), inp.rst = false) := by
  decide
theorem witness_port_run : ∃ u, runCycles 2 (driven State.reset false true 0x9BE) = .next u ∧
    State.reset.inFlight = none ∧ (∀ inp ∈ (driven State.reset false true 0x9BE).inputs.take 2, inp.rst = false) ∧
    u.final.inFlight = none := ⟨_, rfl, rfl, by decide, rfl⟩

/-- The same request to a block of `LAT_CRC` 2 and to one of `LAT_CRC` 1: the hypotheses of the latency statement. -/
theorem witness_two_latencies : ∃ u u', runCycles 2 { driven slow false true 0x9BE with build := ⟨0, 1⟩ } = .next u ∧
    runCycles 1 (driven State.reset false true 0x9BE) = .next u' ∧ u.final.inFlight = none ∧ u'.final.inFlight = none ∧
    u.accepted = u'.accepted := ⟨_, _, rfl, rfl, rfl, rfl, rfl⟩
theorem witness_ports_ok_in_flight : PortsOk { slow with inFlight := some ⟨0x9BE, 6⟩ } ∧
    ∃ t, step { slow with inFlight := some ⟨0x9BE, 6⟩ } = .next t := ⟨⟨fun h => (nomatch h), rfl, rfl⟩, _, rfl⟩
theorem witness_illegal_is_accepted : decode 0xFFF = .error .reservedOpcode ∧
    (driven slow false true 0xFFF).outputs.reqReady = true ∧ (driven slow false true 0xFFF).nextInput = ⟨false, true, 0xFFF⟩ := by
  decide
theorem witness_reset_ends_and_goes_on : ∃ t t', step (driven slow true true 0x9BE) = .next t ∧ t.nextInput.rst = false ∧
    step { slow with inputs := [⟨true, false, 0⟩, ⟨true, false, 0⟩] } = .next t' ∧ t'.nextInput.rst = true :=
  ⟨_, _, rfl, rfl, rfl, rfl⟩
theorem witness_first_group_bad : (⟨0x5C, 0x32, 0x74⟩ : OctetGroup).good = false := by decide +kernel
/-- The first octet and the last: the ends of the range of the changed position. -/
theorem witness_corrupted_at_the_ends : (⟨0x5C, 0x32, 0x75⟩ : OctetGroup).good = true ∧ (⟨0x64, 0x62, 0x8E⟩ : OctetGroup).good = true ∧
    (0 < 6 ∧ 5 < 6) ∧ (⟨⟨0x5C, 0x32, 0x75⟩, ⟨0x64, 0x62, 0x8E⟩⟩ : RawFrame).octets[0]? ≠ some 0x5D ∧
    (⟨⟨0x5C, 0x32, 0x75⟩, ⟨0x64, 0x62, 0x8E⟩⟩ : RawFrame).octets[5]? ≠ some 0x8F ∧
    (⟨⟨0x5D, 0x32, 0x75⟩, ⟨0x64, 0x62, 0x8E⟩⟩ : RawFrame).octets
      = (⟨⟨0x5C, 0x32, 0x75⟩, ⟨0x64, 0x62, 0x8E⟩⟩ : RawFrame).octets.set 0 0x5D ∧
    (⟨⟨0x5C, 0x32, 0x75⟩, ⟨0x64, 0x62, 0x8F⟩⟩ : RawFrame).octets
      = (⟨⟨0x5C, 0x32, 0x75⟩, ⟨0x64, 0x62, 0x8E⟩⟩ : RawFrame).octets.set 5 0x8F := by decide +kernel
theorem witness_corrupted_frame : (⟨0x5C, 0x32, 0x75⟩ : OctetGroup).good = true ∧ (⟨0x64, 0x62, 0x8E⟩ : OctetGroup).good = true ∧
    (4 < 6) ∧ (⟨⟨0x5C, 0x32, 0x75⟩, ⟨0x64, 0x62, 0x8E⟩⟩ : RawFrame).octets[4]? ≠ some 0x63 ∧
    (⟨⟨0x5C, 0x32, 0x75⟩, ⟨0x64, 0x63, 0x8E⟩⟩ : RawFrame).octets
      = (⟨⟨0x5C, 0x32, 0x75⟩, ⟨0x64, 0x62, 0x8E⟩⟩ : RawFrame).octets.set 4 0x63 := by decide +kernel

end Sys2Proof.Tests
end

section
/-! PROOF. Cycles on the ports serve the accepted requests in order, one run of requests at a time (R49, R121, R123);
hence no latency and no timing shows in the results (R15, R133). -/

namespace Sys2Proof.Machine

theorem SameRegisters.refl (s : State) : SameRegisters s s := ⟨rfl, rfl⟩

theorem SameRegisters.symm {s t : State} : SameRegisters s t → SameRegisters t s
  | ⟨hc, hm⟩ => ⟨hc.symm, hm.symm⟩

theorem SameRegisters.trans {s t u : State} : SameRegisters s t → SameRegisters t u → SameRegisters s u
  | ⟨hc, hm⟩, ⟨hc', hm'⟩ => ⟨hc'.trans hc, hm'.trans hm⟩

/-- A request list runs alike from states with equal registers, whatever else differs. -/
theorem runRequests_det {ws : List ReqWord} {s s' : State} {r r' : Run} (h : SameRegisters s s')
    (e : runRequests ws s = .next r) (e' : runRequests ws s' = .next r') :
    SameRegisters r.final r'.final ∧ r'.responses = r.responses := by
  obtain ⟨q, hq, hregs, hresp⟩ := runRequests_congr ws h e
  obtain rfl : q = r' := by simpa [hq] using e'
  exact ⟨hregs, hresp⟩

/-- With no reset in the next `n + 1` cycles there is none in this cycle and none in the `n` after it. -/
theorem noReset_succ {n : Nat} {s : State} (h : ∀ inp ∈ s.inputs.take (n + 1), inp.rst = false) :
    s.nextInput.rst = false ∧ ∀ inp ∈ s.inputs.tail.take n, inp.rst = false := by
  unfold State.nextInput
  cases hi : s.inputs with
  | nil => simp [idleInput]
  | cons i is => simpa [hi] using h

/-- The request accepted and not yet answered, if any (R121 allows one). -/
def State.pending (s : State) : List ReqWord := (s.inFlight.map InFlight.req).toList

theorem State.pending_of_inFlight_none {s : State} (h : s.inFlight = none) : s.pending = [] := by
  simp [State.pending, h]

theorem State.accepted_of_reqValid_false {s : State} (h : s.nextInput.reqValid = false) : s.accepted = none := by
  simp [State.accepted, h]

/-- A waiting request is the one pending, or the one accepted in this cycle. -/
theorem Waits.pending_append_accepted {s : State} {w : ReqWord} {n : Nat} (h : Waits s w n)
    (hr : s.nextInput.rst = false) : s.pending ++ s.accepted.toList = [w] := by
  obtain hf | ⟨hf, hv, hw, -⟩ := h
  · simp [State.pending, State.accepted, hf]
  · simp [State.pending, State.accepted, hf, hv, hw, hr]

/-- A cycle changes the inputs in no other way than taking its own away. -/
theorem cycle_inputs {s t : State} (h : cycle s = .next t) : t.inputs = s.inputs.tail := by
  obtain ⟨-, hc⟩ | ⟨w, -, -, -, hc⟩ | ⟨w, n, -, -, -, hc⟩ | ⟨-, -, -, -, hc⟩ := cycle_cases s <;> rw [hc] at h
  · cases h; rfl
  · obtain ⟨_, ht, ha⟩ := serve_answered w s.popInput.quiet
    rw [ht] at h; cases h
    exact ha.inputs_eq
  · cases h; rfl
  · cases h; rfl

/-- From `s` to `t` the ports accepted `acc` and offered `resp`: the requests pending or accepted, less the one pending
at `t`, run whole and in order from `s`, give these responses and the registers of `t`. -/
def ServesInOrder (s : State) (acc : List ReqWord) (resp : List Response) (t : State) : Prop :=
  ∃ (served : List ReqWord) (r : Run), s.pending ++ acc = served ++ t.pending ∧
    runRequests served s = .next r ∧ r.responses = resp ∧ SameRegisters r.final t

/-- Nothing is served where the pending request only changes its count and the registers stay. -/
theorem servesInOrder_of_pending_eq {s t : State} {acc : List ReqWord} (hp : s.pending ++ acc = t.pending)
    (hregs : SameRegisters s t) : ServesInOrder s acc [] t :=
  ⟨[], ⟨s, []⟩, hp, rfl, rfl, hregs⟩

theorem ServesInOrder.trans {s t u : State} {acc acc' : List ReqWord} {resp resp' : List Response}
    (h : ServesInOrder s acc resp t) (h' : ServesInOrder t acc' resp' u) :
    ServesInOrder s (acc ++ acc') (resp ++ resp') u := by
  obtain ⟨xs, a, hxs, ha, rfl, hat⟩ := h
  obtain ⟨ys, b, hys, hb, rfl, hbu⟩ := h'
  obtain ⟨c, hc, hbc, hresp⟩ := runRequests_congr ys hat.symm hb
  refine ⟨xs ++ ys, _, ?_, runRequests_append xs ys ha hc, by rw [hresp], hbc.symm.trans hbu⟩
  rw [← List.append_assoc, hxs, List.append_assoc, hys, List.append_assoc]

/-- One cycle without reset serves the request that completes at its edge, if one does. -/
theorem cycle_servesInOrder {s t : State} (hr : s.nextInput.rst = false) (h : cycle s = .next t) :
    ServesInOrder s s.accepted.toList t.rsp.toList t := by
  obtain ⟨hr', -⟩ | ⟨w, -, -, hw, hc⟩ | ⟨w, n, -, -, hw, hc⟩ | ⟨-, -, hf, hv, hc⟩ := cycle_cases s
  · simp [hr] at hr'
  · obtain ⟨a, ht, ha⟩ := serve_answered w s.popInput.quiet
    obtain rfl : a = t := by simpa [hc, ht] using h
    have hquiet : SameRegisters s.popInput.quiet s := ⟨rfl, rfl⟩
    obtain ⟨t', ht', hregs, hrsp⟩ := serve_congr w hquiet ht
    refine ⟨[w], _, ?_, runRequests_cons ht' (runRequests_nil t'), by simp [hrsp], hregs.symm⟩
    rw [hw.pending_append_accepted hr, State.pending_of_inFlight_none ha.inFlight_eq, List.append_nil]
  · rw [hc] at h; cases h
    exact servesInOrder_of_pending_eq (hw.pending_append_accepted hr) ⟨rfl, rfl⟩
  · rw [hc] at h; cases h
    refine servesInOrder_of_pending_eq ?_ ⟨rfl, rfl⟩
    simp [State.pending, hf, State.accepted_of_reqValid_false hv]

/-- Cycles without reset serve the accepted requests in order, whatever the latencies and the timing. -/
theorem runCycles_servesInOrder {n : Nat} {s : State} {u : PortRun}
    (hr : ∀ inp ∈ s.inputs.take n, inp.rst = false) (h : runCycles n s = .next u) :
    ServesInOrder s u.accepted u.responses u.final := by
  induction n generalizing s u with
  | zero =>
    cases h
    exact servesInOrder_of_pending_eq (List.append_nil _) (.refl s)
  | succ n ih =>
    obtain ⟨t, v, ht, hv, rfl⟩ := runCycles_succ_inv h
    obtain ⟨hnow, hlater⟩ := noReset_succ hr
    rw [← cycle_inputs ht] at hlater
    exact (cycle_servesInOrder hnow ht).trans (ih hlater hv)

/-- Cycles that begin and end with nothing in progress are the run of exactly the accepted requests. -/
theorem runRequests_accepted {n : Nat} {s : State} {u : PortRun} (hs : s.inFlight = none)
    (hr : ∀ inp ∈ s.inputs.take n, inp.rst = false) (h : runCycles n s = .next u) (hu : u.final.inFlight = none) :
    ∃ r : Run, runRequests u.accepted s = .next r ∧ r.responses = u.responses ∧ SameRegisters r.final u.final := by
  obtain ⟨served, r, hacc, hrun, hresp, hregs⟩ := runCycles_servesInOrder hr h
  obtain rfl : u.accepted = served := by
    simpa [State.pending_of_inFlight_none hs, State.pending_of_inFlight_none hu] using hacc
  exact ⟨r, hrun, hresp, hregs⟩

/-- Settles O48: both runs on the ports are the run of one request list, from states with equal registers. -/
theorem resultsDoNotDependOnLatency : Obligations.ResultsDoNotDependOnLatency := by
  unfold Obligations.ResultsDoNotDependOnLatency
  intro n n' s s' u u' hcrc hmatch hs hs' hr hr' h h' hu hu' hacc
  obtain ⟨r, hrun, hresp, hregs⟩ := runRequests_accepted hs hr h hu
  obtain ⟨r', hrun', hresp', hregs'⟩ := runRequests_accepted hs' hr' h' hu'
  rw [← hacc] at hrun'
  obtain ⟨hfinal, heq⟩ := runRequests_det ⟨hcrc.symm, hmatch.symm⟩ hrun hrun'
  obtain ⟨hcrc', hmatch'⟩ : SameRegisters u'.final u.final := (hregs.symm.trans (hfinal.trans hregs')).symm
  exact ⟨by rw [← hresp, ← hresp', heq], hcrc', hmatch'⟩

end Sys2Proof.Machine
end

section
/-! PROOF. The two registers (R22, R24): what a request and a clock cycle do to them, hence that they always are what
the history says, the frame of every operation, and when the status outputs change (R31). -/

namespace Sys2Proof.Machine

open Sys2Proof.Safety

/-! ### What one operation does to the registers -/

/-- An operation's effect on the two registers, case by case: the three operations that write a register, and the six that
write neither and leave no trace in the history. -/
theorem exec_cases {i : Instr} {s t : State} (e : exec i s = .next t) :
    (i = .crcInit ∧ t.crc = crcInit ∧ t.matchFlag = false) ∨
    (∃ b, i = .crcAbsorb b ∧ t.crc = crc8Octet s.crc b ∧ t.matchFlag = false) ∨
    (∃ x, i = .crcCheck x ∧ t.crc = s.crc ∧ t.matchFlag = (s.crc == x)) ∨
    ((∀ h : History, h.afterInstr i = h) ∧ SameRegisters s t) := by
  cases i with
  | crcInit => cases e; exact .inl ⟨rfl, rfl, rfl⟩
  | crcAbsorb b => cases e; exact .inr (.inl ⟨b, rfl, rfl, rfl⟩)
  | crcCheck x => cases e; exact .inr (.inr (.inl ⟨x, rfl, rfl, rfl⟩))
  | cmdSleep | cmdWake | cmdReset | cmdReadId | cmdMeas | crcRead =>
    cases e; exact .inr (.inr (.inr ⟨fun _ => rfl, rfl, rfl⟩))

theorem answered_of_exec {i : Instr} {s t : State} (e : exec i s = .next t) : Answered s t := by
  obtain ⟨u, hu, ha⟩ := exec_answered i s
  obtain rfl : u = t := by simpa [hu] using e
  exact ha

/-- `CRC` is written by `CRC.INIT` and `CRC.ABSORB` only (R22). -/
theorem exec_crc_eq_or {i : Instr} {s t : State} (e : exec i s = .next t) :
    t.crc = s.crc ∨ i = .crcInit ∨ ∃ b, i = .crcAbsorb b := by
  obtain ⟨hi, -⟩ | ⟨b, hi, -⟩ | ⟨-, -, hc, -⟩ | ⟨-, hc, -⟩ := exec_cases e
  · exact .inr (.inl hi)
  · exact .inr (.inr ⟨b, hi⟩)
  · exact .inl hc
  · exact .inl hc

/-- `MATCH` is written by `CRC.INIT`, `CRC.ABSORB` and `CRC.CHECK` only (R24). -/
theorem exec_matchFlag_eq_or {i : Instr} {s t : State} (e : exec i s = .next t) :
    t.matchFlag = s.matchFlag ∨ i = .crcInit ∨ (∃ b, i = .crcAbsorb b) ∨ ∃ x, i = .crcCheck x := by
  obtain ⟨hi, -⟩ | ⟨b, hi, -⟩ | ⟨x, hi, -⟩ | ⟨-, -, hm⟩ := exec_cases e
  · exact .inr (.inl hi)
  · exact .inr (.inr (.inl ⟨b, hi⟩))
  · exact .inr (.inr (.inr ⟨x, hi⟩))
  · exact .inl hm

/-- A request does what its operation does; an illegal one keeps both registers (R92). -/
theorem serve_cases {w : ReqWord} {s t : State} (e : serve w s = .next t) :
    (∃ i, decode w = .ok i ∧ exec i s = .next t) ∨ ((∃ x, decode w = .error x) ∧ SameRegisters s t) := by
  cases hd : decode w with
  | ok i => exact .inl ⟨i, rfl, by rwa [serve_of_ok hd] at e⟩
  | error x => rw [serve_of_error hd] at e; cases e; exact .inr ⟨⟨x, rfl⟩, rfl, rfl⟩

/-! ### What one clock cycle does to the registers -/

/-- A step resets the registers, or serves the request that completes at its edge from the registers as they are, or
keeps them. -/
theorem step_register_cases {s t : State} (e : step s = .next t) :
    (s.nextInput.rst = true ∧ t.crc = 0xFF ∧ t.matchFlag = false) ∨
    (∃ w u, s.nextInput.rst = false ∧ s.completing = some w ∧ SameRegisters s u ∧ serve w u = .next t) ∨
    (s.nextInput.rst = false ∧ s.completing = none ∧ SameRegisters s t) := by
  rw [step_eq_cycle] at e
  obtain ⟨hr, hc⟩ | ⟨w, hr, hw, -, hc⟩ | ⟨w, n, hr, hw, -, hc⟩ | ⟨hr, hw, -, -, hc⟩ := cycle_cases s <;>
    rw [hc] at e
  · cases e; exact .inl ⟨hr, rfl, rfl⟩
  · exact .inr (.inl ⟨w, s.popInput.quiet, hr, hw, ⟨rfl, rfl⟩, e⟩)
  · cases e; exact .inr (.inr ⟨hr, hw, rfl, rfl⟩)
  · cases e; exact .inr (.inr ⟨hr, hw, rfl, rfl⟩)

/-! ### The registers and the history -/

/-- One octet more is one octet step more (R78). -/
theorem compute_append_singleton (bytes : List Octet) (b : Octet) :
    compute (bytes ++ [b]) = crc8Octet (compute bytes) b := by
  simp [compute]

theorem agrees_start {s : State} (hc : s.crc = 0xFF) (hm : s.matchFlag = false) : Agrees .start s := ⟨hc, hm⟩

/-- A history speaks of the two registers only. -/
theorem agrees_congr {h : History} {s t : State} (ha : Agrees h s) (hregs : SameRegisters s t) : Agrees h t := by
  obtain ⟨hcrc, hmatch⟩ := ha
  obtain ⟨hc, hm⟩ := hregs
  exact ⟨hc.trans hcrc, hm.trans hmatch⟩

theorem exec_keeps_agrees {h : History} {i : Instr} {s t : State} (ha : Agrees h s) (e : exec i s = .next t) :
    Agrees (h.afterInstr i) t := by
  obtain ⟨rfl, hc, hm⟩ | ⟨b, rfl, hc, hm⟩ | ⟨x, rfl, hc, hm⟩ | ⟨hkeeps, hregs⟩ := exec_cases e
  · exact agrees_start hc hm
  · have hcrc : t.crc = compute (h.sequence ++ [b]) := by
      rw [hc, ha.crcIsCompute, compute_append_singleton]
    exact ⟨hcrc, hm⟩
  · have hmatch : t.matchFlag = validate h.sequence x := by
      rw [hm, ha.crcIsCompute]; rfl
    exact ⟨hc.trans ha.crcIsCompute, hmatch⟩
  · rw [hkeeps]; exact agrees_congr ha hregs

theorem serve_keeps_agrees {h : History} {w : ReqWord} {s t : State} (ha : Agrees h s) (e : serve w s = .next t) :
    Agrees (h.afterRequest w) t := by
  obtain ⟨i, hd, hi⟩ | ⟨⟨x, hd⟩, hregs⟩ := serve_cases e
  · simpa [History.afterRequest, hd] using exec_keeps_agrees ha hi
  · simpa [History.afterRequest, hd] using agrees_congr ha hregs

/-- Settles O27: a reset starts the history anew, a request served extends it, and every other edge keeps both. -/
theorem registersAlwaysAgreeWithTheHistory : Obligations.RegistersAlwaysAgreeWithTheHistory := by
  unfold Obligations.RegistersAlwaysAgreeWithTheHistory
  intro h s t ha e
  obtain ⟨hr, hc, hm⟩ | ⟨w, u, hr, hw, hregs, hserve⟩ | ⟨hr, hw, hregs⟩ := step_register_cases e
  · simpa [History.afterEdge, hr] using agrees_start hc hm
  · simpa [History.afterEdge, hr, hw] using serve_keeps_agrees (agrees_congr ha hregs) hserve
  · simpa [History.afterEdge, hr, hw] using agrees_congr ha hregs

/-- Settles O25: the frame read off the cases of `exec`. -/
theorem operationsWriteOnlyTheirRegisters : Obligations.OperationsWriteOnlyTheirRegisters := by
  unfold Obligations.OperationsWriteOnlyTheirRegisters
  intro i s t e
  have ha := answered_of_exec e
  refine ⟨ha.inFlight_eq, ha.inputs_eq, ha.build_eq, fun hinit habsorb => ?_, fun hinit habsorb hcheck => ?_⟩
  · obtain hc | hi | ⟨b, hi⟩ := exec_crc_eq_or e
    · exact hc
    · exact absurd hi hinit
    · exact absurd hi (habsorb b)
  · obtain hm | hi | ⟨b, hi⟩ | ⟨x, hi⟩ := exec_matchFlag_eq_or e
    · exact hm
    · exact absurd hi hinit
    · exact absurd hi (habsorb b)
    · exact absurd hi (hcheck x)

/-- Settles O29: a step that does not reset changes a register only through the operation it completes. -/
theorem statusOutputsChangeOnlyOnCompletion : Obligations.StatusOutputsChangeOnlyOnCompletion := by
  unfold Obligations.StatusOutputsChangeOnlyOnCompletion
  refine ⟨fun s => ⟨rfl, rfl⟩, fun s t e => ?_, fun s => rfl⟩
  obtain ⟨hr, -⟩ | ⟨w, u, -, hw, ⟨huc, hum⟩, hserve⟩ | ⟨-, -, hc, hm⟩ := step_register_cases e
  · exact ⟨fun _ => .inl hr, fun _ => .inl hr⟩
  · obtain ⟨i, hd, hi⟩ | ⟨-, hc, hm⟩ := serve_cases hserve
    · refine ⟨fun hne => .inr ⟨w, hw, ?_⟩, fun hne => .inr ⟨w, hw, ?_⟩⟩
      · simpa [hd] using (exec_crc_eq_or hi).resolve_left fun hc => hne (hc.trans huc)
      · simpa [hd] using (exec_matchFlag_eq_or hi).resolve_left fun hm => hne (hm.trans hum)
    · exact ⟨fun hne => absurd (hc.trans huc) hne, fun hne => absurd (hm.trans hum) hne⟩
  · exact ⟨fun hne => absurd hc hne, fun hne => absurd hm hne⟩

/-! ### `MATCH` is not read -/

/-- An operation's response and the `CRC` it leaves depend on `CRC` only. -/
theorem exec_congr_crc (i : Instr) {s s' t : State} (hc : s'.crc = s.crc) (e : exec i s = .next t) :
    ∃ t', exec i s' = .next t' ∧ t'.rsp = t.rsp ∧ t'.crc = t.crc := by
  cases i with
  | crcInit => cases e; exact ⟨_, rfl, rfl, rfl⟩
  | crcAbsorb | crcCheck | crcRead => cases e; exact ⟨_, rfl, by simp [hc], by simp [hc]⟩
  | cmdSleep | cmdWake | cmdReset | cmdReadId | cmdMeas => cases e; exact ⟨_, rfl, rfl, hc⟩

theorem serve_congr_crc (w : ReqWord) {s s' t : State} (hc : s'.crc = s.crc) (e : serve w s = .next t) :
    ∃ t', serve w s' = .next t' ∧ t'.rsp = t.rsp ∧ t'.crc = t.crc := by
  cases hd : decode w with
  | ok i => rw [serve_of_ok hd] at e ⊢; exact exec_congr_crc i hc e
  | error x => rw [serve_of_error hd] at e ⊢; cases e; exact ⟨_, rfl, rfl, hc⟩

/-- Settles O26: a request's response and `CRC` depend on the `CRC` before it only. -/
theorem matchIsReadByNoOperation : Obligations.MatchIsReadByNoOperation := by
  unfold Obligations.MatchIsReadByNoOperation
  intro w s m
  have hcrc : { s with matchFlag := m }.crc = s.crc := rfl
  obtain ⟨t, ht, -⟩ := serve_answered w s
  obtain ⟨t', ht', hrsp, hc⟩ := serve_congr_crc w hcrc ht
  exact ⟨t, t', ht, ht', hrsp, hc⟩

/-! ### Absorbing a sequence -/

theorem decode_encode_crcAbsorb (b : Octet) : decode (encode (.crcAbsorb b)) = .ok (.crcAbsorb b) := by
  simp [decode, encode]

/-- Absorbing octets one request each folds the octet step over them, from any `CRC`. -/
theorem runRequests_absorb (bytes : List Octet) (s : State) :
    ∃ r : Run, runRequests (bytes.map fun b => encode (.crcAbsorb b)) s = .next r ∧
      r.final.crc = bytes.foldl crc8Octet s.crc := by
  induction bytes generalizing s with
  | nil => exact ⟨_, runRequests_nil s, rfl⟩
  | cons b bytes ih =>
    obtain ⟨t, ht, htc⟩ : ∃ t, serve (encode (.crcAbsorb b)) s = .next t ∧ t.crc = crc8Octet s.crc b :=
      ⟨_, serve_of_ok (decode_encode_crcAbsorb b) s, rfl⟩
    obtain ⟨r, hr, hrc⟩ := ih t
    exact ⟨_, runRequests_cons ht hr, by rw [hrc, htc, List.foldl_cons]⟩

/-- Settles O28: the reset values are those of the empty history, and `compute` is the fold from them. -/
theorem resetStateIsTheEmptySequence : Obligations.ResetStateIsTheEmptySequence := by
  unfold Obligations.ResetStateIsTheEmptySequence
  exact ⟨rfl, rfl, agrees_start rfl rfl, fun bytes => runRequests_absorb bytes State.reset⟩

end Sys2Proof.Machine
end

section
/-! PROOF. The bit step and the octet step are bijections (R88), so one octet takes `CRC` to any value (R23). -/

namespace Sys2Proof.Machine

/-- A shift brings a 0 into bit 0. -/
theorem shl1_getLsbD_zero (c : Octet) : (shl1 c).getLsbD 0 = false := by
  simp only [shl1, BitVec.getLsbD_append, BitVec.getLsbD_extractLsb']
  rfl

/-- A shift moves the low seven bits up by one. -/
theorem shl1_high_bits (c : Octet) : (shl1 c).extractLsb' 1 7 = c.extractLsb' 0 7 := by
  apply BitVec.eq_of_getLsbD_eq
  intro i hi
  simp only [shl1, BitVec.getLsbD_append, BitVec.getLsbD_extractLsb']
  simp [hi]

/-- An octet is its bit 7 above its low seven bits. -/
theorem top_append_low_bits (c : Octet) : BitVec.ofBool (c.getLsbD 7) ++ c.extractLsb' 0 7 = c := by
  apply BitVec.eq_of_getLsbD_eq
  intro i hi
  simp only [BitVec.getLsbD_append, BitVec.getLsbD_extractLsb']
  by_cases h : i < 7
  · simp [h]
  · obtain rfl : i = 7 := by omega
    simp

/-- Bit 7 goes out at the top and, since `POLY` is odd, comes back as bit 0 (R88). -/
theorem crc8Bit_getLsbD_zero (c : Octet) : (crc8Bit c).getLsbD 0 = c.getLsbD 7 := by
  have hpoly : crcPoly.getLsbD 0 = true := rfl
  cases h : c.getLsbD 7 <;> simp only [crc8Bit, h]
  · exact shl1_getLsbD_zero c
  · simp only [if_true, BitVec.getLsbD_xor, shl1_getLsbD_zero, hpoly, Bool.false_xor]

/-- Bit 0 tells whether `POLY` was exclusive-ored in; undoing that leaves the shift (R88). -/
theorem crc8BitInv_crc8Bit : Function.LeftInverse crc8BitInv crc8Bit := by
  intro c
  have hjoin := top_append_low_bits c
  cases h : c.getLsbD 7 <;> rw [h] at hjoin
  · have hbit : crc8Bit c = shl1 c := by simp only [crc8Bit, h]; rfl
    rw [crc8BitInv, crc8Bit_getLsbD_zero, h, hbit, shl1_high_bits]
    exact hjoin
  · have hbit : crc8Bit c ^^^ crcPoly = shl1 c := by simp [crc8Bit, h]
    rw [crc8BitInv, crc8Bit_getLsbD_zero, h, hbit, shl1_high_bits]
    exact hjoin

/-- An injective map of the finitely many octets is a bijection. -/
theorem crc8Bit_bijective : Function.Bijective crc8Bit :=
  Finite.injective_iff_bijective.mp crc8BitInv_crc8Bit.injective

/-- The octet step depends on `c xor b` only, and is eight bit steps of it. -/
theorem crc8Octet_eq_iterate (c b : Octet) : crc8Octet c b = crc8Bit^[8] (c ^^^ b) := rfl

theorem crc8Octet_bijective (c : Octet) : Function.Bijective (crc8Octet c) := by
  have hxor : Function.Involutive fun b : Octet => c ^^^ b := fun b => by simp
  exact (crc8Bit_bijective.iterate 8).comp hxor.bijective

/-- Settles O23: the octet step is a bijection in its octet, so exactly one octet gives the value wanted. -/
theorem everyChecksumIsReachable : Obligations.EveryChecksumIsReachable := by
  unfold Obligations.EveryChecksumIsReachable
  refine ⟨fun x => ?_, crc8Octet_bijective 0x00, fun s x hs => ?_⟩
  · simp [crc8Octet_eq_iterate]
  · obtain ⟨b, hb, huniq⟩ := (crc8Octet_bijective s.crc).existsUnique x
    refine ⟨b, ⟨_, rfl, hb⟩, fun b' t e hx => huniq b' ?_⟩
    cases e
    exact hx

end Sys2Proof.Machine
end

section
/-! PROOF. From a block with nothing in progress, accepted requests are served in order (R49, R121, R123). -/

namespace Sys2Proof.Machine

/-- Settles O47: with nothing in progress at the start, the requests accepted are those served and the one pending. -/
theorem portsServeRequestsInOrder : Obligations.PortsServeRequestsInOrder := by
  unfold Obligations.PortsServeRequestsInOrder
  intro n s u hs hr h
  obtain ⟨served, r, hacc, hrun, hresp, hregs⟩ := runCycles_servesInOrder hr h
  obtain ⟨hcrc, hmatch⟩ := hregs.symm
  rw [State.pending_of_inFlight_none hs, List.nil_append] at hacc
  exact ⟨served, r, hacc, hrun, hresp, hcrc, hmatch⟩

end Sys2Proof.Machine
end

section
/-! PROOF. Every operation but `CRC.ABSORB` is idempotent (R46). -/

namespace Sys2Proof.Machine

/-- An operation that is not `CRC.ABSORB` leaves what it reads such that it answers the same again (R46). -/
theorem exec_idempotent {i : Instr} {s t : State} (hi : ∀ b, i ≠ .crcAbsorb b) (e : exec i s = .next t) :
    exec i t = .next t := by
  cases i with
  | crcAbsorb b => exact absurd rfl (hi b)
  | cmdSleep | cmdWake | cmdReset | cmdReadId | cmdMeas | crcInit | crcCheck | crcRead => cases e; rfl

theorem crc8Octet_comm (c b : Octet) : crc8Octet c b = crc8Octet b c := by
  rw [crc8Octet_eq_iterate, crc8Octet_eq_iterate, BitVec.xor_comm]

/-- The octet step is injective in `CRC` too (R88). -/
theorem crc8Octet_left_cancel {c d b : Octet} (h : crc8Octet c b = crc8Octet d b) : c = d := by
  rw [crc8Octet_comm c, crc8Octet_comm d] at h
  exact (crc8Octet_bijective b).injective h

/-- An octet that changes `CRC` changes it again when absorbed again. -/
theorem crc8Octet_twice_ne {c b : Octet} (h : crc8Octet c b ≠ c) : crc8Octet (crc8Octet c b) b ≠ crc8Octet c b :=
  fun heq => h (crc8Octet_left_cancel heq)

/-- Some octet changes `CRC`: the one that takes it to its complement. -/
theorem exists_crc8Octet_ne (c : Octet) : ∃ b, crc8Octet c b ≠ c := by
  obtain ⟨b, hb⟩ := (crc8Octet_bijective c).surjective (~~~c)
  exact ⟨b, by rw [hb]; bv_omega⟩

/-- Settles O24: `CRC.ABSORB` of an octet that changes `CRC` changes it twice. -/
theorem operationsButAbsorbAreIdempotent : Obligations.OperationsButAbsorbAreIdempotent := by
  unfold Obligations.OperationsButAbsorbAreIdempotent
  refine ⟨fun i s t hi e => exec_idempotent hi e, fun s => ?_⟩
  obtain ⟨b, hb⟩ := exists_crc8Octet_ne s.crc
  refine ⟨b, _, rfl, fun htwice => ?_⟩
  have hcrc : crc8Octet (crc8Octet s.crc b) b = crc8Octet s.crc b :=
    congrArg State.crc (Host.Outcome.next.inj htwice)
  exact crc8Octet_twice_ne hb hcrc

end Sys2Proof.Machine
end

section
/-! PROOF. A word that decodes is the word of its operation (R59, R60), so no word of an operation is illegal (R61). -/

namespace Sys2Proof

/-- The flags read from an octet of form `F` are that octet (R56). -/
theorem flagsOctet_of_high_bits_zero {arg : Octet} (h : arg.extractLsb' 3 5 = 0b00000#5) :
    flagsOctet (arg.getLsbD 2) (arg.getLsbD 1) (arg.getLsbD 0) = arg := by
  have hsplit : arg.extractLsb' 3 5 ++ BitVec.ofBool (arg.getLsbD 2) ++ BitVec.ofBool (arg.getLsbD 1) ++
      BitVec.ofBool (arg.getLsbD 0) = arg := by
    apply BitVec.eq_of_getLsbD_eq
    intro i hi
    simp only [BitVec.getLsbD_append, BitVec.getLsbD_extractLsb']
    match i with
    | 0 | 1 | 2 => simp
    | i + 3 => simp [show i < 5 by omega, Nat.add_comm]
  rwa [h] at hsplit

/-- A request word with these two fields is the word made of them. -/
theorem requestWord_of_fields {w : ReqWord} {op : Opcode} {arg : Octet} (hop : opField w = op)
    (harg : argField w = arg) : requestWord op arg = w := by
  rw [← hop, ← harg, requestWord_fields]

/-- An opcode of form `Z` with no operand is the word of its operation. -/
theorem encode_of_decodeZ {w : ReqWord} {op : Opcode} {i j : Instr} (hop : opField w = op)
    (hi : encode i = requestWord op 0x00) (h : decodeZ (argField w) i = .ok j) : encode j = w := by
  unfold decodeZ at h
  split at h
  next harg => cases h; exact hi.trans (requestWord_of_fields hop harg)
  next => cases h

theorem encode_of_decodeF {w : ReqWord} {i : Instr} (hop : opField w = 0x4) (h : decodeF (argField w) = .ok i) :
    encode i = w := by
  unfold decodeF at h
  split at h
  next hhigh => cases h; exact requestWord_of_fields hop (flagsOctet_of_high_bits_zero hhigh).symm
  next => cases h

/-- A word that decodes is the word of what it decodes to (R59, R60). -/
theorem encode_of_decode {w : ReqWord} {i : Instr} (h : decode w = .ok i) : encode i = w := by
  simp only [decode] at h
  split_ifs at h with h0 h1 h2 h3 h4 h8 h9 hA hB
  · exact encode_of_decodeZ h0 rfl h
  · exact encode_of_decodeZ h1 rfl h
  · exact encode_of_decodeZ h2 rfl h
  · exact encode_of_decodeZ h3 rfl h
  · exact encode_of_decodeF h4 h
  · exact encode_of_decodeZ h8 rfl h
  · cases h; exact requestWord_of_fields h9 rfl
  · cases h; exact requestWord_of_fields hA rfl
  · exact encode_of_decodeZ hB rfl h

/-- The word of an operation meets none of the three cases of R61. -/
theorem illegalRequest_encode (i : Instr) : illegalRequest (encode i) = false := by
  cases i with
  | cmdMeas cs lp hf => cases cs <;> cases lp <;> cases hf <;> rfl
  | crcAbsorb | crcCheck => simp [illegalRequest, encode, reservedOp, formZOp]
  | cmdSleep | cmdWake | cmdReset | cmdReadId | crcInit | crcRead => rfl

/-- A word illegal by R61 does not decode. -/
theorem decode_of_illegalRequest {w : ReqWord} (h : illegalRequest w = true) : ∃ e, decode w = .error e := by
  cases hd : decode w with
  | error e => exact ⟨e, rfl⟩
  | ok i => rw [← encode_of_decode hd, illegalRequest_encode] at h; cases h

end Sys2Proof
end

section
/-! PROOF. What the command encoder answers: entries of the command table (R37, R39), high octet first (R40, R66). -/

namespace Sys2Proof.Machine

/-- A command is a word that decodes, of an opcode with `op[3]` = 0. -/
theorem decode_of_isCommand {w : ReqWord} (h : isCommand w = true) :
    ∃ i, decode w = .ok i ∧ (opField (encode i)).getLsbD 3 = false := by
  unfold isCommand at h
  cases hd : decode w with
  | error e => simp [hd, Except.toOption] at h
  | ok i => exact ⟨i, rfl, by simpa [encode_of_decode hd, hd, Except.toOption] using h⟩

/-- An operation of the command encoder answers one table entry, the same from every state, and writes nothing. -/
theorem exec_command {i : Instr} (h : (opField (encode i)).getLsbD 3 = false) :
    ∃ k : Fin 12, ∀ s, exec i s = .next (s.offer false (readTbl k)) := by
  cases i with
  | cmdSleep => exact ⟨sleepIndex, fun _ => rfl⟩
  | cmdWake => exact ⟨wakeIndex, fun _ => rfl⟩
  | cmdReset => exact ⟨softResetIndex, fun _ => rfl⟩
  | cmdReadId => exact ⟨readIdIndex, fun _ => rfl⟩
  | cmdMeas cs lp hf => exact ⟨measIndex cs lp hf, fun _ => rfl⟩
  | crcInit | crcAbsorb | crcCheck | crcRead => simp [encode] at h

theorem serve_command {w : ReqWord} (h : isCommand w = true) :
    ∃ k : Fin 12, ∀ s, serve w s = .next (s.offer false (readTbl k)) := by
  obtain ⟨i, hd, hop⟩ := decode_of_isCommand h
  obtain ⟨k, hk⟩ := exec_command hop
  exact ⟨k, fun s => by rw [serve_of_ok hd, hk]⟩

/-- No command word is 0x0000 (R39). -/
theorem readTbl_ne_zero : ∀ k : Fin 12, readTbl k ≠ 0x0000 := by decide

/-- Settles O7: a command is answered from the table, an illegal request with 0x0000, which the table does not hold. -/
theorem onlyTheTwelveWordsComeOutAsCommands : Obligations.OnlyTheTwelveWordsComeOutAsCommands := by
  unfold Obligations.OnlyTheTwelveWordsComeOutAsCommands
  refine ⟨fun w s h => ?_, fun w s h => ?_, readTbl_ne_zero⟩
  · obtain ⟨k, hk⟩ := serve_command h
    exact ⟨k, _, hk s, rfl⟩
  · obtain ⟨e, hd⟩ := decode_of_illegalRequest h
    exact ⟨_, serve_of_error hd s, rfl⟩

/-- The first wire octet is the quotient by 256. -/
theorem wire_fst (w : Word) : (wire w).1 = BitVec.ofNat 8 (w.toNat / 256) := by
  apply BitVec.eq_of_toNat_eq
  simp [wire, Nat.shiftRight_eq_div_pow]

/-- The second wire octet is the remainder by 256. -/
theorem wire_snd (w : Word) : (wire w).2 = BitVec.ofNat 8 (w.toNat % 256) := by
  apply BitVec.eq_of_toNat_eq
  simp [wire]

/-- The two wire octets in order of transmission are the word (R40). -/
theorem wire_append (w : Word) : (wire w).1 ++ (wire w).2 = w :=
  (BitVec.extractLsb'_append_extractLsb'_eq_extractLsb' rfl).trans BitVec.extractLsb'_eq_self

/-- Settles O10: the high octet is the quotient, the low octet the remainder. -/
theorem wireFormIsHighOctetFirst : Obligations.WireFormIsHighOctetFirst := by
  unfold Obligations.WireFormIsHighOctetFirst
  exact fun w => ⟨Prod.ext (wire_fst w) (wire_snd w), wire_append w⟩

end Sys2Proof.Machine
end

section
/-! PROOF. The decoder and the encoder are inverse (R59, R60), and the rows of the opcode table are the
decoder's. -/

namespace Sys2Proof

/-- Decoding the word of an operation gives the operation back (R59, R60). -/
@[simp] theorem decode_encode (i : Instr) : decode (encode i) = .ok i := by
  cases i with
  | cmdMeas cs lp hf => cases cs <;> cases lp <;> cases hf <;> rfl
  | crcAbsorb | crcCheck => simp [decode, encode]
  | cmdSleep | cmdWake | cmdReset | cmdReadId | crcInit | crcRead => rfl

/-- Settles O32: decoding reads back the opcode and the operand that encoding put into the two fields. -/
theorem decodeOfEncodeIsTheOperation : Obligations.DecodeOfEncodeIsTheOperation := decode_encode

/-- Settles O33: the two fields of a word that decodes are those of its operation's word. -/
theorem encodeOfDecodeIsTheWord : Obligations.EncodeOfDecodeIsTheWord := fun _ _ => encode_of_decode

/-! ### The rows of the opcode table -/

/-- The word of an operation lies in the operation's row. -/
theorem row_covers_encode (i : Instr) : i.row.covers (encode i) = true := by
  cases i with
  | cmdSleep => exact Laws.RowCovers.cmdSleep
  | cmdWake => exact Laws.RowCovers.cmdWake
  | cmdReset => exact Laws.RowCovers.cmdReset
  | cmdReadId => exact Laws.RowCovers.cmdReadId
  | cmdMeas cs lp hf => exact Laws.RowCovers.cmdMeas cs lp hf
  | crcInit => exact Laws.RowCovers.crcInit
  | crcAbsorb b => exact Laws.RowCovers.crcAbsorb b
  | crcCheck e => exact Laws.RowCovers.crcCheck e
  | crcRead => exact Laws.RowCovers.crcRead

theorem row_mem_opcodeTable (i : Instr) : i.row ∈ opcodeTable := by
  cases i <;> simp [Instr.row, opcodeTable]

/-- A mask that keeps the bits `k` to `k + n - 1` makes every word of its row agree with `match` there. -/
theorem extractLsb'_of_covers {r : TableRow} {w : ReqWord} {k n : Nat}
    (hmask : r.mask.extractLsb' k n = BitVec.allOnes n) (h : r.covers w = true) :
    w.extractLsb' k n = r.matchBits.extractLsb' k n := by
  have hbits : w &&& r.mask = r.matchBits := by simpa [TableRow.covers] using h
  rw [← hbits, BitVec.extractLsb'_and, hmask, BitVec.and_allOnes]

/-- A row whose mask keeps every bit holds one word. -/
theorem eq_of_covers_full {m w : ReqWord} (h : TableRow.covers ⟨m, 0xFFF⟩ w = true) : w = m := by
  simpa [BitVec.extractLsb'_eq_self] using extractLsb'_of_covers (k := 0) (n := 12) rfl h

/-- The row of a form `B` operation holds only words of its opcode. -/
theorem opField_of_covers {m w : ReqWord} (h : TableRow.covers ⟨m, 0xF00⟩ w = true) : opField w = opField m :=
  extractLsb'_of_covers (r := ⟨m, 0xF00⟩) (k := 8) (n := 4) (show (0xF00 : ReqWord).extractLsb' 8 4 = _ from rfl) h

/-- The row of `CMD.MEAS` holds only words with its opcode and `arg[7:3]` zero. -/
theorem eq_encode_of_covers_meas {w : ReqWord} (h : TableRow.covers ⟨0x400, 0xFF8⟩ w = true) :
    ∃ cs lp hf, w = encode (.cmdMeas cs lp hf) := by
  have hop : opField w = 0x4 := extractLsb'_of_covers (k := 8) (n := 4) rfl h
  have hhigh : (argField w).extractLsb' 3 5 = 0b00000#5 := by
    rw [argField, BitVec.extractLsb'_extractLsb'_of_le (by omega)]
    exact extractLsb'_of_covers (k := 0 + 3) (n := 5) rfl h
  exact ⟨_, _, _, (requestWord_of_fields hop (flagsOctet_of_high_bits_zero hhigh).symm).symm⟩

/-- The rows of the table hold the words of the operations and no others. -/
theorem eq_encode_of_covers {r : TableRow} {w : ReqWord} (hr : r ∈ opcodeTable) (h : r.covers w = true) :
    ∃ i : Instr, w = encode i ∧ r = i.row := by
  simp only [opcodeTable, List.mem_cons, List.not_mem_nil, or_false] at hr
  obtain rfl | rfl | rfl | rfl | rfl | rfl | rfl | rfl | rfl := hr
  · exact ⟨.cmdSleep, eq_of_covers_full h, rfl⟩
  · exact ⟨.cmdWake, eq_of_covers_full h, rfl⟩
  · exact ⟨.cmdReset, eq_of_covers_full h, rfl⟩
  · exact ⟨.cmdReadId, eq_of_covers_full h, rfl⟩
  · obtain ⟨cs, lp, hf, hw⟩ := eq_encode_of_covers_meas h
    exact ⟨.cmdMeas cs lp hf, hw, rfl⟩
  · exact ⟨.crcInit, eq_of_covers_full h, rfl⟩
  · exact ⟨.crcAbsorb (argField w), (requestWord_of_fields (opField_of_covers h) rfl).symm, rfl⟩
  · exact ⟨.crcCheck (argField w), (requestWord_of_fields (opField_of_covers h) rfl).symm, rfl⟩
  · exact ⟨.crcRead, eq_of_covers_full h, rfl⟩

/-- A word in a row of the table decodes to an operation of that row. -/
theorem decode_of_covers {r : TableRow} {w : ReqWord} (hr : r ∈ opcodeTable) (h : r.covers w = true) :
    ∃ i : Instr, decode w = .ok i ∧ r = i.row := by
  obtain ⟨i, rfl, hi⟩ := eq_encode_of_covers hr h
  exact ⟨i, decode_encode i, hi⟩

/-- A word lies in at most one row: the row of what it decodes to. -/
theorem row_eq_of_covers {r r' : TableRow} {w : ReqWord} (hr : r ∈ opcodeTable) (hr' : r' ∈ opcodeTable)
    (h : r.covers w = true) (h' : r'.covers w = true) : r = r' := by
  obtain ⟨i, hi, rfl⟩ := decode_of_covers hr h
  obtain ⟨j, hj, rfl⟩ := decode_of_covers hr' h'
  obtain rfl : i = j := by simpa [hi] using hj
  rfl

theorem opcodeTable_nodup : opcodeTable.Nodup := by decide

theorem rows_covering_length_le_one (w : ReqWord) : (opcodeTable.filter fun row => row.covers w).length ≤ 1 := by
  rw [← List.toFinset_card_of_nodup (opcodeTable_nodup.filter _), Finset.card_le_one]
  intro r hr r' hr'
  obtain ⟨hmem, hcov⟩ : r ∈ opcodeTable ∧ r.covers w = true := by simpa using hr
  obtain ⟨hmem', hcov'⟩ : r' ∈ opcodeTable ∧ r'.covers w = true := by simpa using hr'
  exact row_eq_of_covers hmem hmem' hcov hcov'

/-- Settles O34: the words of the rows are the words of the operations, and each operation has one row. -/
theorem decodeAgreesWithTheOpcodeTable : Obligations.DecodeAgreesWithTheOpcodeTable := by
  unfold Obligations.DecodeAgreesWithTheOpcodeTable
  refine ⟨fun w i h => ?_, fun w e h row hrow => ?_, rows_covering_length_le_one⟩
  · rw [← encode_of_decode h]
    exact ⟨row_mem_opcodeTable i, row_covers_encode i⟩
  · by_contra hcov
    obtain ⟨i, hi, -⟩ := decode_of_covers hrow (by simpa using hcov)
    simp [h] at hi

end Sys2Proof
end

section
/-! PROOF. The illegal request words are those of R61, and how many words of each opcode are legal (R59). -/

namespace Sys2Proof

theorem ne_zero_of_decodeZ_error {arg : Octet} {i : Instr} {e : Illegal} (h : decodeZ arg i = .error e) :
    arg ≠ 0x00#8 := by
  rintro rfl
  cases h

theorem high_bits_ne_zero_of_decodeF_error {arg : Octet} {e : Illegal} (h : decodeF arg = .error e) :
    arg.extractLsb' 3 5 ≠ 0b00000#5 := by
  intro hhigh
  simp [decodeF, hhigh] at h

/-- R61 (b). -/
theorem illegalRequest_of_decodeZ_error {w : ReqWord} {i : Instr} {e : Illegal} (hop : formZOp (opField w) = true)
    (h : decodeZ (argField w) i = .error e) : illegalRequest w = true := by
  simp [illegalRequest, hop, ne_zero_of_decodeZ_error h]

/-- R56, R59, R61: an opcode is reserved, of form `Z`, or one of the three with an operand. -/
theorem opcode_forms :
    ∀ op : Opcode, (reservedOp op || formZOp op || op == 0x4 || op == 0x9 || op == 0xA) = true := by
  decide

/-- R61 (a). -/
theorem reservedOp_of_ne {op : Opcode} (h0 : op ≠ 0x0#4) (h1 : op ≠ 0x1#4) (h2 : op ≠ 0x2#4) (h3 : op ≠ 0x3#4)
    (h4 : op ≠ 0x4#4) (h8 : op ≠ 0x8#4) (h9 : op ≠ 0x9#4) (hA : op ≠ 0xA#4) (hB : op ≠ 0xB#4) :
    reservedOp op = true := by
  simpa [formZOp, h0, h1, h2, h3, h4, h8, h9, hA, hB] using opcode_forms op

/-- A word that does not decode is illegal by R61. -/
theorem illegalRequest_of_decode {w : ReqWord} {e : Illegal} (h : decode w = .error e) : illegalRequest w = true := by
  simp only [decode] at h
  split_ifs at h with h0 h1 h2 h3 h4 h8 h9 hA hB
  · exact illegalRequest_of_decodeZ_error (by rw [h0]; rfl) h
  · exact illegalRequest_of_decodeZ_error (by rw [h1]; rfl) h
  · exact illegalRequest_of_decodeZ_error (by rw [h2]; rfl) h
  · exact illegalRequest_of_decodeZ_error (by rw [h3]; rfl) h
  · simp [illegalRequest, h4, high_bits_ne_zero_of_decodeF_error h]
  · exact illegalRequest_of_decodeZ_error (by rw [h8]; rfl) h
  · exact illegalRequest_of_decodeZ_error (by rw [hB]; rfl) h
  · simp [illegalRequest, reservedOp_of_ne h0 h1 h2 h3 h4 h8 h9 hA hB]

/-- The decoder refuses exactly the words illegal by R61. -/
theorem illegalRequest_iff {w : ReqWord} : illegalRequest w = true ↔ ∃ e, decode w = .error e :=
  ⟨decode_of_illegalRequest, fun ⟨_, h⟩ => illegalRequest_of_decode h⟩

theorem decode_isSome (w : ReqWord) : (decode w).toOption.isSome = !illegalRequest w := by
  cases hd : decode w with
  | ok i => rw [← encode_of_decode hd, illegalRequest_encode]; rfl
  | error e => rw [illegalRequest_of_decode hd]; rfl

/-- The test of R61 is its three cases. -/
theorem illegalRequest_iff_cases (w : ReqWord) : illegalRequest w = true ↔
    (opField w ∈ [0x5#4, 0x6#4, 0x7#4, 0xC#4, 0xD#4, 0xE#4, 0xF#4] ∨
      (opField w ∈ [0x0#4, 0x1#4, 0x2#4, 0x3#4, 0x8#4, 0xB#4] ∧ argField w ≠ 0x00) ∨
      (opField w = 0x4 ∧ (argField w).extractLsb' 3 5 ≠ 0b00000#5)) := by
  simp [illegalRequest, reservedOp, formZOp, or_assoc]

/-! ### How many words are legal -/

/-- How many operands of an opcode are legal (R56, R59): none, one, eight, or every octet. -/
def legalArgCount (op : Opcode) : Nat :=
  if reservedOp op then 0 else if formZOp op then 1 else if op = 0x4#4 then 8 else 256

/-- An opcode of form `Z` is legal with operand 0x00 only. -/
theorem illegalRequest_formZ {op : Opcode} (hZ : formZOp op = true) (arg : Octet) :
    illegalRequest (requestWord op arg) = (arg != 0x00) := by
  have hother : ∀ op : Opcode, formZOp op = true → reservedOp op = false ∧ (op == 0x4#4) = false := by decide
  obtain ⟨hreserved, h4⟩ := hother op hZ
  simp [illegalRequest, hZ, hreserved, h4]

/-- `CMD.MEAS` is legal with `arg[7:3]` zero only. -/
theorem illegalRequest_formF (arg : Octet) :
    illegalRequest (requestWord 0x4#4 arg) = (arg.extractLsb' 3 5 != 0b00000) := by
  simp [illegalRequest, reservedOp, formZOp]

/-- The other two opcodes, those of form `B`, are legal with every operand. -/
theorem illegalRequest_formB {op : Opcode} (hreserved : ¬reservedOp op = true) (hZ : ¬formZOp op = true)
    (h4 : op ≠ 0x4#4) (arg : Octet) : illegalRequest (requestWord op arg) = false := by
  simp [illegalRequest, hreserved, hZ, beq_false_of_ne h4]

theorem zeroOctets_length : ((List.range 256).filter fun n => !(BitVec.ofNat 8 n != 0x00)).length = 1 := by decide

theorem flagsOctets_length :
    ((List.range 256).filter fun n => !((BitVec.ofNat 8 n).extractLsb' 3 5 != 0b00000)).length = 8 := by
  decide

theorem legalArgs_length (op : Opcode) :
    ((List.range 256).filter fun arg => (decode (requestWord op (BitVec.ofNat 8 arg))).toOption.isSome).length
      = legalArgCount op := by
  simp only [decode_isSome, legalArgCount]
  split_ifs with hreserved hZ h4
  · simp [illegalRequest, hreserved]
  · simp only [illegalRequest_formZ hZ]
    exact zeroOctets_length
  · subst h4
    simp only [illegalRequest_formF]
    exact flagsOctets_length
  · simp [illegalRequest_formB hreserved hZ h4]

/-- The `p` among the first `m * k` numbers, counted in `k` blocks of `m`. -/
theorem filter_range_mul_length (p : Nat → Bool) (m k : Nat) :
    ((List.range (m * k)).filter p).length
      = ((List.range k).map fun q => ((List.range m).filter fun r => p (m * q + r)).length).sum := by
  induction k with
  | zero => rfl
  | succ k ih =>
    simp [Nat.mul_succ, List.range_add, List.range_succ, List.filter_map, Function.comp_def, ih]

/-- A request word as a number: `op` counts 256s (R55). -/
theorem requestWord_ofNat (op : Nat) {arg : Nat} (harg : arg < 256) :
    requestWord (BitVec.ofNat 4 op) (BitVec.ofNat 8 arg) = BitVec.ofNat 12 (256 * op + arg) := by
  have h8 : arg < 2 ^ 8 := harg
  apply BitVec.eq_of_toNat_eq
  rw [requestWord, BitVec.toNat_append, BitVec.toNat_ofNat, BitVec.toNat_ofNat, BitVec.toNat_ofNat,
    Nat.mod_eq_of_lt h8, ← Nat.shiftLeft_add_eq_or_of_lt h8, Nat.shiftLeft_eq]
  omega

theorem legalArgCounts : (List.range 16).map (fun op => legalArgCount (BitVec.ofNat 4 op))
    = [1, 1, 1, 1, 8, 0, 0, 0, 1, 256, 256, 1, 0, 0, 0, 0] := by decide

theorem legalWords_length :
    ((List.range 4096).filter fun n => (decode (BitVec.ofNat 12 n)).toOption.isSome).length = 526 := by
  have hblock (op : Nat) : ((List.range 256).filter fun arg =>
      (decode (BitVec.ofNat 12 (256 * op + arg))).toOption.isSome).length = legalArgCount (BitVec.ofNat 4 op) := by
    rw [← legalArgs_length]
    refine congrArg _ (List.filter_congr fun arg harg => ?_)
    rw [requestWord_ofNat op (List.mem_range.mp harg)]
  rw [show 4096 = 256 * 16 from rfl, filter_range_mul_length]
  simp only [hblock, legalArgCounts]
  rfl

theorem illegalWords_length :
    ((List.range 4096).filter fun n => !(decode (BitVec.ofNat 12 n)).toOption.isSome).length = 3570 := by
  have hsplit := List.length_eq_length_filter_add (l := List.range 4096)
    fun n => (decode (BitVec.ofNat 12 n)).toOption.isSome
  rw [List.length_range, legalWords_length] at hsplit
  omega

/-- Settles O36: each opcode counts the operands its form admits, and the words are sixteen blocks of 256. -/
theorem legalWordsByOpcode : Obligations.LegalWordsByOpcode := by
  unfold Obligations.LegalWordsByOpcode
  simp only [legalArgs_length]
  exact ⟨legalArgCounts, legalWords_length⟩

/-- Settles O35: the decoder's branches are the cases of R61, and acceptance at the port does not look at the word. -/
theorem illegalWordsAreExactlyTheThreeCases : Obligations.IllegalWordsAreExactlyTheThreeCases := by
  unfold Obligations.IllegalWordsAreExactlyTheThreeCases
  refine ⟨fun w => illegalRequest_iff.symm.trans (illegalRequest_iff_cases w), fun w => illegalRequest_iff,
    illegalWords_length, fun w s ⟨e, h⟩ => ⟨fun hready hinput => ?_, Machine.serve_of_error h s⟩⟩
  have hidle : s.inFlight.isNone = true := hready
  simp [Machine.State.accepted, hinput, hidle]

end Sys2Proof
end

section
/-! PROOF. The assembler: the words of a line (R63), and what the pseudo-operations answer (R64). -/

namespace Sys2Proof.Machine

/-- A line with every operand in range assembles to its words. -/
theorem assemble_of_wellFormed {l : Line} (h : l.wellFormed = true) : assemble l = some (expand l) := by
  simp [assemble, h]

/-- A line with an operand out of range is refused. -/
theorem assemble_of_not_wellFormed {l : Line} (h : l.wellFormed = false) : assemble l = none := by
  simp [assemble, h]

/-- A line whose check is `P` and whose words are `ws` where `P` holds. -/
theorem assemble_eq_ite {l : Line} {P : Prop} [Decidable P] {ws : List ReqWord} (hcheck : l.wellFormed = true ↔ P)
    (hwords : P → expand l = ws) : assemble l = if P then some ws else none := by
  by_cases h : P
  · rw [if_pos h, assemble_of_wellFormed (hcheck.mpr h), hwords h]
  · rw [if_neg h, assemble_of_not_wellFormed (by simpa [← hcheck] using h)]

/-- The word of `CMD.MEAS` from its flags as numbers (R57). -/
theorem encode_cmdMeas_flagOf {cs lp hf : Nat} (hcs : cs < 2) (hlp : lp < 2) (hhf : hf < 2) :
    encode (.cmdMeas (flagOf cs) (flagOf lp) (flagOf hf)) = BitVec.ofNat 12 (0x400 + 4 * cs + 2 * lp + hf) := by
  interval_cases cs <;> interval_cases lp <;> interval_cases hf <;> rfl

/-- Settles O37: the word of an octet operand is the opcode's 256s and the octet. -/
theorem assemblerGivesTheWordOrRefuses : Obligations.AssemblerGivesTheWordOrRefuses := by
  unfold Obligations.AssemblerGivesTheWordOrRefuses
  refine ⟨rfl, rfl, rfl, rfl, rfl, rfl, fun cs lp hf => ?_, fun b => ?_, fun e => ?_, fun w => ?_⟩
  · refine assemble_eq_ite (by simp [Line.wellFormed, flagInRange, and_assoc]) fun ⟨hcs, hlp, hhf⟩ => ?_
    exact congrArg (fun w => [w]) (encode_cmdMeas_flagOf hcs hlp hhf)
  · exact assemble_eq_ite (by simp [Line.wellFormed, octetInRange])
      fun hb => congrArg (fun w => [w]) (requestWord_ofNat 0x9 hb)
  · exact assemble_eq_ite (by simp [Line.wellFormed, octetInRange])
      fun he => congrArg (fun w => [w]) (requestWord_ofNat 0xA he)
  · exact assemble_eq_ite (by simp [Line.wellFormed, reqInRange]) fun _ => rfl

/-! ### The pseudo-operations -/

@[simp] theorem octetOf_toNat (b : Octet) : octetOf b.toNat = b := by simp [octetOf]

@[simp] theorem octetInRange_toNat (b : Octet) : octetInRange b.toNat = true := by
  simpa [octetInRange] using b.isLt

@[simp] theorem absorbAll_toNat (bytes : List Octet) :
    absorbAll (bytes.map BitVec.toNat) = bytes.map fun b => encode (.crcAbsorb b) := by
  simp [absorbAll, Function.comp_def]

theorem serve_encode (i : Instr) (s : State) : serve (encode i) s = exec i s := serve_of_ok (decode_encode i) s

/-- The words of the octets between a `CRC.INIT` and a last operation. -/
def bracketed (bytes : List Octet) (last : Instr) : List ReqWord :=
  encode .crcInit :: (bytes.map (fun b => encode (.crcAbsorb b)) ++ [encode last])

theorem assemble_crcCompute (bytes : List Octet) :
    assemble (.crcCompute (bytes.map BitVec.toNat)) = some (bracketed bytes .crcRead) := by
  rw [assemble_of_wellFormed (by simp [Line.wellFormed])]
  simp [expand, bracketed]

theorem assemble_crcValidate (bytes : List Octet) (e : Octet) :
    assemble (.crcValidate (bytes.map BitVec.toNat) e.toNat) = some (bracketed bytes (.crcCheck e)) := by
  rw [assemble_of_wellFormed (by simp [Line.wellFormed])]
  simp [expand, bracketed]

/-- The last operation of a bracketed run finds `compute` of the octets in `CRC`, and the run ends as it does. -/
theorem runRequests_bracketed (bytes : List Octet) (last : Instr) (s : State) :
    ∃ (t u : State) (r : Run), t.crc = compute bytes ∧ exec last t = .next u ∧
      runRequests (bracketed bytes last) s = .next r ∧ r.final = u ∧ r.responses.getLast? = u.rsp := by
  obtain ⟨a, ha, hcrc⟩ : ∃ a, serve (encode .crcInit) s = .next a ∧ a.crc = crcInit :=
    ⟨_, serve_encode .crcInit s, rfl⟩
  obtain ⟨r, hr, hrc⟩ := runRequests_absorb bytes a
  obtain ⟨u, hu, hanswered⟩ := exec_answered last r.final
  obtain ⟨x, hx⟩ := Option.isSome_iff_exists.mp hanswered.rsp_isSome
  have hlast := runRequests_cons ((serve_encode last r.final).trans hu) (runRequests_nil u)
  refine ⟨r.final, u, _, by rw [hrc, hcrc, compute], hu,
    runRequests_cons ha (runRequests_append _ _ hr hlast), rfl, ?_⟩
  simp [hx]

/-- The table entry of a measurement is the word the spec lists for its flags (R37, R72). -/
theorem readTbl_measIndex (cs lp hf : Bool) : readTbl (measIndex cs lp hf) = (measCase cs lp hf).1 := by
  cases cs <;> cases lp <;> cases hf <;> rfl

/-- Settles O38: `CRC.INIT` and the absorbed octets leave `compute` in `CRC` for the last operation. -/
theorem pseudoOperationsAnswerComputeAndValidate : Obligations.PseudoOperationsAnswerComputeAndValidate := by
  unfold Obligations.PseudoOperationsAnswerComputeAndValidate
  refine ⟨fun bytes s => ?_, fun bytes e s => ?_, fun hi lo ck => ?_, fun lowpower stretch hfirst s => ?_⟩
  · obtain ⟨t, u, r, hcrc, hu, hr, -, hresp⟩ := runRequests_bracketed bytes .crcRead s
    refine ⟨_, r, assemble_crcCompute bytes, hr, ?_⟩
    cases hu
    rw [hresp, ← hcrc]
    rfl
  · obtain ⟨t, u, r, hcrc, hu, hr, hfinal, hresp⟩ := runRequests_bracketed bytes (.crcCheck e) s
    refine ⟨_, r, assemble_crcValidate bytes e, hr, ?_⟩
    cases hu
    rw [hresp, hfinal, validate, ← hcrc, ← matchData_eq]
    exact ⟨rfl, rfl⟩
  · simp [assemble, Line.wellFormed, expand]
  · refine ⟨_, _, rfl, runRequests_cons (serve_encode _ s) (runRequests_nil _), ?_⟩
    rw [← readTbl_measIndex]
    rfl

end Sys2Proof.Machine
end

section
/-! PROOF. The layout of the response word (R58), and words of the opcode map written out (R59, R63). -/

namespace Sys2Proof.Machine

/-- Settles O30: `err` stands above the 16 bits of `data`. -/
theorem responseWordLayout : Obligations.ResponseWordLayout := by
  unfold Obligations.ResponseWordLayout
  intro r
  refine ⟨?_, BitVec.extractLsb'_append_eq_right⟩
  rw [Response.pack, BitVec.getLsbD_append]
  simp

/-- Settles O31: each word is the word of its operation. -/
theorem specWordsDecode : Obligations.SpecWordsDecode := by
  unfold Obligations.SpecWordsDecode
  exact ⟨decode_encode .cmdSleep, decode_encode .cmdReadId, decode_encode (.cmdMeas true true false),
    decode_encode (.cmdMeas false false true), decode_encode .crcInit, decode_encode (.crcAbsorb 0xBE),
    decode_encode (.crcCheck 0x92), decode_encode .crcRead⟩

end Sys2Proof.Machine
end

section
/-! PROOF. The command encoder: which word each `CMD.*` request gives, that it identifies the request (R68 to R73, R75),
and that a command leaves every other request as it was (R67). -/

namespace Sys2Proof.Machine

/-! ### The operations in the order of their table entries -/

/-- The twelve operations of the command encoder, each at the index of its word in `TBL` (R36). -/
def commands : Vector Instr 12 :=
  #v[.cmdSleep, .cmdWake, .cmdReset, .cmdReadId,
     .cmdMeas false false false, .cmdMeas false false true, .cmdMeas false true false, .cmdMeas false true true,
     .cmdMeas true false false, .cmdMeas true false true, .cmdMeas true true false, .cmdMeas true true true]

/-- The operation that the entry `TBL[k]` belongs to (R36). -/
def commandOf (k : Fin 12) : Instr := commands[k]

/-- The operation of an entry answers that entry, from every state, and writes nothing. -/
theorem exec_commandOf (k : Fin 12) (s : State) : exec (commandOf k) s = .next (s.offer false (readTbl k)) := by
  fin_cases k <;> rfl

theorem commandOf_measIndex (cs lp hf : Bool) : commandOf (measIndex cs lp hf) = .cmdMeas cs lp hf := by
  cases cs <;> cases lp <;> cases hf <;> rfl

/-- An operation with `op[3]` = 0 has an entry in the table. -/
theorem exists_eq_commandOf {i : Instr} (h : (opField (encode i)).getLsbD 3 = false) : ∃ k, i = commandOf k := by
  cases i with
  | cmdSleep => exact ⟨sleepIndex, rfl⟩
  | cmdWake => exact ⟨wakeIndex, rfl⟩
  | cmdReset => exact ⟨softResetIndex, rfl⟩
  | cmdReadId => exact ⟨readIdIndex, rfl⟩
  | cmdMeas cs lp hf => exact ⟨measIndex cs lp hf, (commandOf_measIndex cs lp hf).symm⟩
  | crcInit | crcAbsorb | crcCheck | crcRead => simp [encode] at h

/-- A command is the word of an operation with an entry in the table. -/
theorem eq_encode_commandOf {w : ReqWord} (h : isCommand w = true) : ∃ k, w = encode (commandOf k) := by
  obtain ⟨i, hd, hop⟩ := decode_of_isCommand h
  obtain ⟨k, rfl⟩ := exists_eq_commandOf hop
  exact ⟨k, (encode_of_decode hd).symm⟩

theorem serve_encode_commandOf (k : Fin 12) (s : State) :
    serve (encode (commandOf k)) s = .next (s.offer false (readTbl k)) := by
  rw [serve_encode, exec_commandOf]

/-! ### A word identifies its request (R73) -/

theorem readTbl_injective : Function.Injective readTbl := by decide

/-- The words with a property, counted opcode by opcode. -/
theorem filter_words_length (p : ReqWord → Bool) :
    ((List.range 4096).filter fun n => p (BitVec.ofNat 12 n)).length = ((List.range 16).map fun op =>
      ((List.range 256).filter fun arg => p (requestWord (BitVec.ofNat 4 op) (BitVec.ofNat 8 arg))).length).sum := by
  rw [show 4096 = 256 * 16 from rfl, filter_range_mul_length]
  refine congrArg List.sum (List.map_congr_left fun op _ => congrArg List.length (List.filter_congr fun arg harg => ?_))
  rw [requestWord_ofNat op (List.mem_range.mp harg)]

/-- The commands of one opcode: all its legal words, or none when `op[3]` = 1. -/
theorem commandArgs_length (op : Opcode) :
    ((List.range 256).filter fun arg => isCommand (requestWord op (BitVec.ofNat 8 arg))).length
      = if op.getLsbD 3 then 0 else legalArgCount op := by
  simp only [isCommand, opField_requestWord]
  cases op.getLsbD 3 with
  | true => simp
  | false => simpa using legalArgs_length op

/-- Opcodes 0 to 3 have one command each, opcode 4 has eight. -/
theorem commandWords_length : ((List.range 4096).filter fun n => isCommand (BitVec.ofNat 12 n)).length = 12 := by
  rw [filter_words_length]
  simp only [commandArgs_length]
  decide

/-- Equal responses to two commands, whatever the states, are one entry of the table and so one request. -/
theorem command_eq_of_rsp_eq {w w' : ReqWord} {s s' t t' : State} (hw : isCommand w = true)
    (hw' : isCommand w' = true) (e : serve w s = .next t) (e' : serve w' s' = .next t') (h : t.rsp = t'.rsp) :
    w = w' := by
  obtain ⟨k, rfl⟩ := eq_encode_commandOf hw
  obtain ⟨k', rfl⟩ := eq_encode_commandOf hw'
  rw [serve_encode_commandOf] at e e'
  cases e
  cases e'
  have hword : readTbl k = readTbl k' := by simpa using h
  rw [readTbl_injective hword]

/-- Settles O6: a command answers the table entry of its own operation, and the entries differ. -/
theorem commandWordsIdentifyTheirRequest : Obligations.CommandWordsIdentifyTheirRequest := by
  unfold Obligations.CommandWordsIdentifyTheirRequest
  refine ⟨commandWords_length, fun w s h => ?_, fun w w' s s' t t' => command_eq_of_rsp_eq⟩
  obtain ⟨k, hk⟩ := serve_command h
  exact ⟨_, readTbl k, hk s, rfl⟩

/-! ### The select of the table (R75) -/

/-- The index that the bits `op[2]`, `op[1:0]` and `arg[2:0]` of a request select (R75). -/
def selectedIndex (w : ReqWord) : Nat :=
  if (opField w).getLsbD 2 then 4 + ((argField w).extractLsb' 0 3).toNat else ((opField w).extractLsb' 0 2).toNat

/-- The word of an operation selects the operation's entry. -/
theorem selectedIndex_encode_commandOf : ∀ k : Fin 12, selectedIndex (encode (commandOf k)) = k := by decide

/-- Settles O8: the index selected is that of the operation the command stands for. -/
theorem commandSelectFollowsTheRequestBits : Obligations.CommandSelectFollowsTheRequestBits := by
  unfold Obligations.CommandSelectFollowsTheRequestBits
  intro w s i hw hi
  obtain ⟨k, rfl⟩ := eq_encode_commandOf hw
  obtain rfl : i = k := Fin.ext (hi.trans (selectedIndex_encode_commandOf k))
  exact serve_encode_commandOf i s

/-! ### A request inserted into a run (R67) -/

/-- Every run of requests ends, with one response for each request. -/
theorem runRequests_answered (ws : List ReqWord) (s : State) :
    ∃ r : Run, runRequests ws s = .next r ∧ r.responses.length = ws.length := by
  induction ws generalizing s with
  | nil => exact ⟨_, runRequests_nil s, rfl⟩
  | cons w ws ih =>
    obtain ⟨t, ht, ha⟩ := serve_answered w s
    obtain ⟨x, hx⟩ := Option.isSome_iff_exists.mp ha.rsp_isSome
    obtain ⟨r, hr, hlen⟩ := ih t
    exact ⟨_, runRequests_cons ht hr, by simp [hx, hlen]⟩

/-- A request that always answers `x` and writes no register, inserted into a run, adds `x` at its place and changes no
other response and neither final register. -/
theorem runRequests_insert {w : ReqWord} {x : Response} (h : ∀ s, serve w s = .next { s with rsp := some x })
    (before after : List ReqWord) (s : State) :
    ∃ (a b : Run) (c d : List Response),
      runRequests (before ++ after) s = .next a ∧ runRequests (before ++ w :: after) s = .next b ∧
      c.length = before.length ∧ a.responses = c ++ d ∧ b.responses = c ++ x :: d ∧
      b.final.crc = a.final.crc ∧ b.final.matchFlag = a.final.matchFlag := by
  obtain ⟨p, hp, hlen⟩ := runRequests_answered before s
  obtain ⟨q, hq, -⟩ := runRequests_answered after p.final
  have hkept : SameRegisters p.final { p.final with rsp := some x } := ⟨rfl, rfl⟩
  obtain ⟨q', hq', ⟨hcrc, hmatch⟩, hresp⟩ := runRequests_congr after hkept hq
  exact ⟨_, _, p.responses, q.responses, runRequests_append _ _ hp hq,
    runRequests_append _ _ hp (runRequests_cons (h p.final) hq'), hlen, rfl, by simp [hresp], hcrc, hmatch⟩

/-- Settles O9: a command answers its table entry in every state and writes nothing, so it can be inserted anywhere. -/
theorem commandsTouchNothingAndMayStandAnywhere : Obligations.CommandsTouchNothingAndMayStandAnywhere := by
  unfold Obligations.CommandsTouchNothingAndMayStandAnywhere
  intro w hw
  obtain ⟨k, hk⟩ := serve_command hw
  exact ⟨⟨false, readTbl k⟩, hk, runRequests_insert hk⟩

/-! ### The operations one by one (R68 to R72) -/

theorem serve_of_illegalRequest {w : ReqWord} (h : illegalRequest w = true) (s : State) :
    serve w s = .next (s.offer true 0x0000) := by
  obtain ⟨e, he⟩ := decode_of_illegalRequest h
  exact serve_of_error he s

/-- An operation without operand, sent with one, is `IllegalOp` (R56, R92). -/
theorem serve_formZ_of_operand {op : Opcode} (hZ : formZOp op = true) {arg : Octet} (h : arg ≠ 0x00) (s : State) :
    serve (requestWord op arg) s = .next (s.offer true 0x0000) :=
  serve_of_illegalRequest (by simpa [illegalRequest_formZ hZ] using h) s

/-- Settles O1: entry 0 of the table, and form `Z`. -/
theorem sleepAnswersTheSleepWord : Obligations.SleepAnswersTheSleepWord := by
  unfold Obligations.SleepAnswersTheSleepWord
  exact ⟨decode_encode .cmdSleep, rfl, rfl, exec_commandOf sleepIndex, fun _ s h => serve_formZ_of_operand rfl h s⟩

/-- Settles O2: entry 1 of the table, and form `Z`. -/
theorem wakeAnswersTheWakeWord : Obligations.WakeAnswersTheWakeWord := by
  unfold Obligations.WakeAnswersTheWakeWord
  exact ⟨decode_encode .cmdWake, rfl, rfl, exec_commandOf wakeIndex, fun _ s h => serve_formZ_of_operand rfl h s⟩

/-- Settles O3: entry 2 of the table, and form `Z`. -/
theorem softResetAnswersItsWordAndResetsNothing : Obligations.SoftResetAnswersItsWordAndResetsNothing := by
  unfold Obligations.SoftResetAnswersItsWordAndResetsNothing
  exact ⟨decode_encode .cmdReset, rfl, rfl, exec_commandOf softResetIndex,
    fun _ s h => serve_formZ_of_operand rfl h s⟩

/-- Settles O4: entry 3 of the table, and form `Z`. -/
theorem readIdAnswersTheReadIdWord : Obligations.ReadIdAnswersTheReadIdWord := by
  unfold Obligations.ReadIdAnswersTheReadIdWord
  exact ⟨decode_encode .cmdReadId, rfl, rfl, exec_commandOf readIdIndex,
    fun _ s h => serve_formZ_of_operand rfl h s⟩

/-- The request word of a measurement is 0x400 and its flags (R72). -/
theorem encode_cmdMeas (cs lp hf : Bool) :
    encode (.cmdMeas cs lp hf) = 0x400 + BitVec.ofNat 12 (4 * cs.toNat + 2 * lp.toNat + hf.toNat) := by
  cases cs <;> cases lp <;> cases hf <;> rfl

/-- The wire octets R72 lists are those of the word it lists. -/
theorem wire_measCase (cs lp hf : Bool) : wire (measCase cs lp hf).1 = (measCase cs lp hf).2 := by
  cases cs <;> cases lp <;> cases hf <;> rfl

theorem exec_cmdMeas (cs lp hf : Bool) (s : State) :
    exec (.cmdMeas cs lp hf) s = .next (s.offer false (measCase cs lp hf).1) := by
  rw [← commandOf_measIndex, exec_commandOf, readTbl_measIndex]

/-- Settles O5: the entry at the index of the flags is the word R72 lists, and `arg[7:3]` not zero is `IllegalOp`. -/
theorem measureAnswersTheWordOfItsFlags : Obligations.MeasureAnswersTheWordOfItsFlags := by
  unfold Obligations.MeasureAnswersTheWordOfItsFlags
  refine ⟨fun cs lp hf => ⟨?_, fun i hi => ?_, wire_measCase cs lp hf, exec_cmdMeas cs lp hf⟩,
    fun arg s h => ?_⟩
  · rw [← encode_cmdMeas, decode_encode]
  · obtain rfl : i = measIndex cs lp hf := Fin.ext hi
    exact readTbl_measIndex cs lp hf
  · exact serve_of_illegalRequest (by simpa [illegalRequest_formF] using h) s

end Sys2Proof.Machine
end

section
/-! PROOF. The checksum functions (R76 to R79): the bit step is linear over exclusive-or and so is the table `T` (R86,
R87); `T` and the octet step are bijections (R88); hence what the checksum detects (R89, R90) and what it does not
overlook (R91). -/

namespace Sys2Proof.Machine

/-! ### The bit step and the table are linear (R86, R87) -/

/-- A shift of an exclusive-or is the exclusive-or of the shifts. -/
theorem shl1_xor (a b : Octet) : shl1 (a ^^^ b) = shl1 a ^^^ shl1 b := by
  rw [shl1, shl1, shl1, BitVec.xor_append, BitVec.extractLsb'_xor, BitVec.xor_self]

/-- What the bit step exclusive-ors into the shift: `POLY` when a 1 went out at the top (R76). -/
def feedback (top : Bool) : Octet := if top then crcPoly else 0x00

theorem crc8Bit_eq_xor (c : Octet) : crc8Bit c = shl1 c ^^^ feedback (c.getLsbD 7) := by
  rw [crc8Bit, feedback]
  split
  · rfl
  · exact BitVec.xor_zero.symm

theorem feedback_xor (p q : Bool) : feedback (p ^^ q) = feedback p ^^^ feedback q := by
  cases p <;> cases q <;> rfl

/-- The bit step is linear because the shift and the feedback are (R87). -/
theorem crc8Bit_xor (a b : Octet) : crc8Bit (a ^^^ b) = crc8Bit a ^^^ crc8Bit b := by
  simp only [crc8Bit_eq_xor, BitVec.getLsbD_xor, shl1_xor, feedback_xor]
  ac_rfl

theorem crc8Bit_zero : crc8Bit 0x00 = 0x00 := rfl

/-- Eight bit steps of `x` (R86). -/
theorem crcT_eq_iterate (x : Octet) : crcT x = crc8Bit^[8] x := by
  simp [crcT, crc8Octet_eq_iterate]

/-- The octet step is the table at `c xor b` (R86). -/
theorem crc8Octet_eq_crcT (c b : Octet) : crc8Octet c b = crcT (c ^^^ b) := by
  rw [crcT_eq_iterate, crc8Octet_eq_iterate]

theorem crcT_xor (x y : Octet) : crcT (x ^^^ y) = crcT x ^^^ crcT y := by
  have hbit : Function.Semiconj₂ crc8Bit (· ^^^ ·) (· ^^^ ·) := crc8Bit_xor
  simpa only [crcT_eq_iterate] using hbit.iterate 8 x y

theorem crcT_zero : crcT 0x00 = 0x00 := by
  rw [crcT_eq_iterate, Function.iterate_fixed crc8Bit_zero]

/-- The table as V4 lists it is the computed one, entry by entry. -/
theorem crcTableV4_eq_map : crcTableV4 = (List.range 256).map fun n => crcT (BitVec.ofNat 8 n) := by decide +kernel

theorem crcTableV4_getElem? (x : Octet) : crcTableV4[x.toNat]? = some (crcT x) := by
  have hx : x.toNat < 256 := x.isLt
  simp [crcTableV4_eq_map, hx]

/-- Settles O17: the octet step is eight bit steps of `c xor b`, and these are tabulated. -/
theorem octetStepIsTheTableOfTheXor : Obligations.OctetStepIsTheTableOfTheXor := by
  unfold Obligations.OctetStepIsTheTableOfTheXor
  refine ⟨fun c b => ⟨crc8Octet_eq_crcT c b, crc8Octet_comm c b, ?_⟩, crcTableV4_getElem?⟩
  simp [crc8Octet_eq_crcT]

/-! ### The table from its values on the one-bit octets (R87) -/

/-- The exclusive-or of `f` over the one-bit octets of the bits set in `x` below bit `n`. -/
def xorOverBits (f : Octet → Octet) (x : Octet) (n : Nat) : Octet :=
  (List.range n).foldl (fun v i => if x.getLsbD i then v ^^^ f (0x01#8 <<< i) else v) 0x00

theorem xorOverBits_succ (f : Octet → Octet) (x : Octet) (n : Nat) : xorOverBits f x (n + 1) =
    if x.getLsbD n then xorOverBits f x n ^^^ f (0x01#8 <<< n) else xorOverBits f x n := by
  simp [xorOverBits, List.range_succ]

/-- One more bit of `x` taken changes that bit only. -/
theorem xorOverBits_id_succ_getLsbD (x : Octet) (n : Nat) {j : Nat} (hj : j < 8) :
    (xorOverBits id x (n + 1)).getLsbD j = ((xorOverBits id x n).getLsbD j ^^ (decide (n = j) && x.getLsbD n)) := by
  have hone : (0x01#8 <<< n).getLsbD j = decide (n = j) := by
    rw [← BitVec.twoPow_eq, BitVec.getLsbD_twoPow, Bool.and_eq_right_iff_imp]
    simpa using fun h : n = j => h ▸ hj
  rw [xorOverBits_succ]
  cases hn : x.getLsbD n <;> simp [hone]

/-- The bits taken so far are those of `x`. -/
theorem xorOverBits_id_getLsbD (x : Octet) (n : Nat) {j : Nat} (hj : j < 8) :
    (xorOverBits id x n).getLsbD j = (decide (j < n) && x.getLsbD j) := by
  induction n with
  | zero => simp [xorOverBits]
  | succ n ih =>
    rw [xorOverBits_id_succ_getLsbD x n hj, ih]
    obtain h | rfl | h := Nat.lt_trichotomy j n
    · simp [h, h.ne', Nat.lt_succ_of_lt h]
    · simp
    · simp [h.not_gt, h.ne, Nat.not_lt.mpr (Nat.succ_le_of_lt h)]

/-- An octet is the exclusive-or of the one-bit octets of its bits. -/
theorem xorOverBits_id (x : Octet) : xorOverBits id x 8 = x := by
  apply BitVec.eq_of_getLsbD_eq
  intro j hj
  rw [xorOverBits_id_getLsbD x 8 hj, decide_eq_true hj, Bool.true_and]

/-- A linear map goes through the exclusive-or over the bits. -/
theorem map_xorOverBits {f : Octet → Octet} (hxor : ∀ a b, f (a ^^^ b) = f a ^^^ f b) (hzero : f 0x00 = 0x00)
    (x : Octet) (n : Nat) : f (xorOverBits id x n) = xorOverBits f x n := by
  induction n with
  | zero => exact hzero
  | succ n ih =>
    rw [xorOverBits_succ, xorOverBits_succ, ← ih]
    split
    · exact hxor ..
    · rfl

/-- `T` of an octet is the exclusive-or of `T` over its one-bit octets (R87). -/
theorem crcT_eq_xorOverBits (x : Octet) : crcT x = xorOverBits crcT x 8 := by
  rw [← map_xorOverBits crcT_xor crcT_zero, xorOverBits_id]

/-- Settles O18: the shift and the conditional exclusive-or of `POLY` are linear, so eight bit steps are. -/
theorem checksumIsLinear : Obligations.ChecksumIsLinear := by
  unfold Obligations.ChecksumIsLinear
  exact ⟨crc8Bit_xor, crc8Bit_zero, crcT_xor, crcT_zero, rfl, rfl, rfl, rfl, rfl, rfl, rfl, rfl, crcT_eq_xorOverBits⟩

/-! ### Bijections (R88) -/

/-- A one-sided inverse of a bijection is two-sided. -/
theorem crc8Bit_crc8BitInv : Function.RightInverse crc8BitInv crc8Bit :=
  crc8BitInv_crc8Bit.rightInverse_of_surjective crc8Bit_bijective.surjective

theorem crcT_bijective : Function.Bijective crcT := crc8Octet_bijective 0x00

theorem crc8Octet_bijective_left (b : Octet) : Function.Bijective fun c => crc8Octet c b := by
  simpa only [crc8Octet_comm _ b] using crc8Octet_bijective b

/-- Settles O19: the bit step has an inverse on both sides, and the other maps are bit steps of an exclusive-or. -/
theorem checksumStepsAreBijections : Obligations.ChecksumStepsAreBijections := by
  unfold Obligations.ChecksumStepsAreBijections
  exact ⟨crc8BitInv_crc8Bit, crc8Bit_crc8BitInv, crc8Bit_getLsbD_zero, crcT_bijective,
    fun _ h => crcT_bijective.injective (h.trans crcT_zero.symm), crc8Octet_bijective_left, crc8Octet_bijective⟩

/-! ### The current checksum absorbed (R89), and exactly one octet validates (R79) -/

@[simp] theorem crc8Octet_self (c : Octet) : crc8Octet c c = 0x00 := by
  rw [crc8Octet_eq_crcT, BitVec.xor_self]
  exact crcT_zero

/-- Only the current checksum is absorbed to zero (R89). -/
theorem crc8Octet_eq_zero_iff {c b : Octet} : crc8Octet c b = 0x00 ↔ b = c := by
  rw [← crc8Octet_self c, (crc8Octet_bijective c).injective.eq_iff]

theorem validate_iff {bytes : List Octet} {e : Octet} : validate bytes e = true ↔ e = compute bytes := by
  rw [validate, beq_iff_eq, eq_comm]

/-- Settles O15: `validate` compares with `compute`. -/
theorem exactlyTheComputedOctetValidates : Obligations.ExactlyTheComputedOctetValidates := fun _ _ => validate_iff

/-- Settles O20: the last octet is absorbed to zero exactly when it is the checksum before it. -/
theorem absorbingTheChecksumGivesZero : Obligations.AbsorbingTheChecksumGivesZero := by
  unfold Obligations.AbsorbingTheChecksumGivesZero
  refine ⟨crc8Octet_self, fun c b h => crc8Octet_eq_zero_iff.mp h, fun bytes => ?_, fun bytes e => ?_⟩
  · rw [compute_append_singleton, crc8Octet_self]
  · rw [compute_append_singleton, crc8Octet_eq_zero_iff, validate_iff]

/-! ### One changed octet (R90) -/

/-- Different checksums stay different whatever octets follow (R90). -/
theorem foldl_crc8Octet_injective (bytes : List Octet) : Function.Injective fun c => bytes.foldl crc8Octet c := by
  induction bytes with
  | nil => exact Function.injective_id
  | cons b bytes ih => exact ih.comp (crc8Octet_bijective_left b).injective

/-- Two sequences that differ in one octet have different checksums (R90). -/
theorem compute_ne_of_octet_ne {b b' : Octet} (h : b ≠ b') (front back : List Octet) :
    compute (front ++ b :: back) ≠ compute (front ++ b' :: back) := by
  simp only [compute, List.foldl_append, List.foldl_cons]
  exact fun heq => h ((crc8Octet_bijective _).injective (foldl_crc8Octet_injective back heq))

/-- What validates one sequence does not validate a sequence of another checksum. -/
theorem validate_eq_false_of_compute_ne {xs ys : List Octet} {e : Octet} (h : validate xs e = true)
    (hne : compute ys ≠ compute xs) : validate ys e = false :=
  eq_false_of_ne_true fun hy => hne ((validate_iff.mp hy).symm.trans (validate_iff.mp h))

/-- Settles O21: a changed data octet changes the checksum, and a changed checksum octet is not the checksum. -/
theorem oneChangedOctetIsDetected : Obligations.OneChangedOctetIsDetected := by
  unfold Obligations.OneChangedOctetIsDetected
  refine ⟨fun front back b b' h => compute_ne_of_octet_ne h front back, fun hi lo ck hi' h hne => ?_,
    fun hi lo ck lo' h hne => ?_, fun hi lo ck ck' h hne => ?_⟩
  · exact validate_eq_false_of_compute_ne h (compute_ne_of_octet_ne hne [] [lo])
  · exact validate_eq_false_of_compute_ne h (compute_ne_of_octet_ne hne [hi] [])
  · exact eq_false_of_ne_true fun h' => hne ((validate_iff.mp h').trans (validate_iff.mp h).symm)

/-! ### Zero octets (R91) -/

/-- From zero, zero octets are absorbed without a trace: the initial value that R91 warns of. -/
theorem foldl_crc8Octet_replicate_zero (n : Nat) : (List.replicate n (0x00 : Octet)).foldl crc8Octet 0x00 = 0x00 := by
  induction n with
  | zero => rfl
  | succ n ih => rwa [List.replicate_succ, List.foldl_cons, crc8Octet_self]

/-- Settles O22: from 0xFF the first two zero octets show; from zero none does. -/
theorem leadingZeroOctetsAreSeen : Obligations.LeadingZeroOctetsAreSeen := by
  unfold Obligations.LeadingZeroOctetsAreSeen
  exact ⟨rfl, rfl, rfl, foldl_crc8Octet_replicate_zero⟩

end Sys2Proof.Machine
end

section
/-! PROOF. The four `CRC.*` operations: their whole next states (R81 to R84), and a checksum computed one octet an
operation (R80). -/

namespace Sys2Proof.Machine

open Sys2Proof.Safety

/-! ### The operations one by one (R81 to R84) -/

theorem exec_crcInit (s : State) :
    exec .crcInit s = .next (({ s with crc := 0xFF, matchFlag := false } : State).offer false 0x00FF) := rfl

theorem exec_crcAbsorb (b : Octet) (s : State) :
    exec (.crcAbsorb b) s = .next (({ s with crc := crc8Octet s.crc b, matchFlag := false } : State).offer false
      ((crc8Octet s.crc b).setWidth 16)) := rfl

/-- `MATCH` and the response are the comparison, whichever way it comes out (R83, R94). -/
theorem exec_crcCheck (e : Octet) (s : State) :
    exec (.crcCheck e) s = .next (({ s with matchFlag := s.crc == e } : State).offer false
      (if s.crc == e then 0x0001 else 0x0000)) := by
  rw [← matchData_eq]
  rfl

theorem exec_crcRead (s : State) : exec .crcRead s = .next (s.offer false (s.crc.setWidth 16)) := rfl

/-- An octet zero-extended has a zero octet above it (R18). -/
theorem setWidth_eq_zero_append (c : Octet) : c.setWidth 16 = 0x00#8 ++ c := BitVec.setWidth_eq_append (by decide)

/-- A cycle in which no operation completes keeps both registers and offers no response (R29). -/
theorem step_of_completing_none {s t : State} (hrst : s.nextInput.rst = false) (hnone : s.completing = none)
    (e : step s = .next t) : SameRegisters s t ∧ t.rsp = none := by
  rw [step_eq_cycle] at e
  obtain ⟨hr, -⟩ | ⟨w, -, hw, -⟩ | ⟨w, n, -, -, -, hc⟩ | ⟨-, -, -, -, hc⟩ := cycle_cases s
  · simp [hrst] at hr
  · simp [hnone] at hw
  · rw [hc] at e; cases e; exact ⟨⟨rfl, rfl⟩, rfl⟩
  · rw [hc] at e; cases e; exact ⟨⟨rfl, rfl⟩, rfl⟩

/-- Settles O11: the whole next state, and form `Z`. -/
theorem initSetsTheInitialValueAndClearsMatch : Obligations.InitSetsTheInitialValueAndClearsMatch := by
  unfold Obligations.InitSetsTheInitialValueAndClearsMatch
  exact ⟨decode_encode .crcInit, exec_crcInit, fun _ s h => serve_formZ_of_operand rfl h s⟩

/-- Settles O12: the whole next state, and a cycle that completes nothing shows nothing. -/
theorem absorbRunsTheOctetStep : Obligations.AbsorbRunsTheOctetStep := by
  unfold Obligations.AbsorbRunsTheOctetStep
  refine ⟨fun b s => ⟨decode_encode (.crcAbsorb b), exec_crcAbsorb b s⟩, rfl, crc8Octet_self,
    fun s t hrst hnone e => ?_⟩
  obtain ⟨⟨hcrc, -⟩, hrsp⟩ := step_of_completing_none hrst hnone e
  exact ⟨hcrc, hrsp⟩

/-- Settles O13: the comparison, in each of its two cases. -/
theorem checkComparesAndKeepsTheChecksum : Obligations.CheckComparesAndKeepsTheChecksum := by
  unfold Obligations.CheckComparesAndKeepsTheChecksum
  refine fun e s => ⟨decode_encode (.crcCheck e), fun heq => ?_, fun hne => ?_⟩
  · rw [exec_crcCheck, beq_iff_eq.mpr heq]; rfl
  · rw [exec_crcCheck, beq_eq_false_iff_ne.mpr hne]; rfl

/-- Settles O14: the whole next state, and form `Z`. -/
theorem readAnswersTheChecksum : Obligations.ReadAnswersTheChecksum := by
  unfold Obligations.ReadAnswersTheChecksum
  refine ⟨decode_encode .crcRead, fun s => ?_, fun _ s h => serve_formZ_of_operand rfl h s⟩
  rw [exec_crcRead, setWidth_eq_zero_append]
  rfl

/-! ### A checksum computed one octet an operation (R80) -/

/-- The octets of a request, then those of the requests after it. -/
theorem absorbed_cons (w : ReqWord) (ws : List ReqWord) : absorbed (w :: ws) = absorbed [w] ++ absorbed ws :=
  List.filterMap_append (l := [w]) (l' := ws)

theorem absorbed_singleton (w : ReqWord) : absorbed [w] = ((decode w).toOption.bind absorbedOctet).toList := by
  cases h : (decode w).toOption.bind absorbedOctet <;> simp [absorbed, h]

/-- A request that is no `CRC.INIT` adds to the sequence the octet it absorbs, if any (R22). -/
theorem sequence_afterRequest {w : ReqWord} (hw : decode w ≠ .ok .crcInit) (h : History) :
    (h.afterRequest w).sequence = h.sequence ++ absorbed [w] := by
  rw [absorbed_singleton, History.afterRequest]
  cases hd : decode w with
  | error x => exact (List.append_nil _).symm
  | ok i =>
    cases i with
    | crcInit => exact absurd hd hw
    | crcAbsorb b => rfl
    | cmdSleep | cmdWake | cmdReset | cmdReadId | cmdMeas | crcCheck | crcRead => exact (List.append_nil _).symm

/-- A run without `CRC.INIT` extends the sequence that `CRC` is `compute` of by the octets it absorbs (R80). -/
theorem runRequests_crc_eq_compute {ws : List ReqWord} (hws : ∀ w ∈ ws, decode w ≠ .ok .crcInit) {h : History}
    {s : State} (ha : Agrees h s) :
    ∃ r : Run, runRequests ws s = .next r ∧ r.final.crc = compute (h.sequence ++ absorbed ws) := by
  induction ws generalizing h s with
  | nil => exact ⟨_, runRequests_nil s, by simpa [absorbed] using ha.crcIsCompute⟩
  | cons w ws ih =>
    obtain ⟨hw, hws⟩ := List.forall_mem_cons.mp hws
    obtain ⟨t, ht, -⟩ := serve_answered w s
    obtain ⟨r, hr, hcrc⟩ := ih hws (serve_keeps_agrees ha ht)
    refine ⟨_, runRequests_cons ht hr, ?_⟩
    rw [hcrc, sequence_afterRequest hw, absorbed_cons w ws, List.append_assoc]

/-- The checksum of a run without `CRC.INIT`, after `CRC.INIT` and after reset (R80). -/
theorem crc_eq_compute_absorbed {ws : List ReqWord} (hws : ∀ w ∈ ws, decode w ≠ .ok .crcInit) (s : State) :
    ∀ start ∈ [runRequests (encode .crcInit :: ws) s, runRequests ws s.applyReset],
      ∃ r : Run, start = .next r ∧ r.final.crc = compute (absorbed ws) := by
  simp only [List.mem_cons, List.not_mem_nil, or_false]
  rintro start (rfl | rfl)
  · obtain ⟨t, ht, hc, hm⟩ : ∃ t, serve (encode .crcInit) s = .next t ∧ t.crc = 0xFF ∧ t.matchFlag = false :=
      ⟨_, serve_encode .crcInit s, rfl, rfl⟩
    obtain ⟨r, hr, hcrc⟩ := runRequests_crc_eq_compute hws (agrees_start hc hm)
    exact ⟨_, runRequests_cons ht hr, hcrc⟩
  · exact runRequests_crc_eq_compute hws (agrees_start s.applyReset_crc s.applyReset_matchFlag)

/-- Settles O16: the requests extend the empty sequence, and `CRC.READ` and `CRC.CHECK` read `CRC`. -/
theorem splitChecksumComputesTheFold : Obligations.SplitChecksumComputesTheFold := by
  unfold Obligations.SplitChecksumComputesTheFold
  intro ws s hws start hstart
  obtain ⟨r, hr, hcrc⟩ := crc_eq_compute_absorbed hws s start hstart
  refine ⟨r, hr, hcrc, ?_, fun e => ?_⟩
  · refine ⟨_, (serve_encode .crcRead r.final).trans (exec_crcRead r.final), ?_⟩
    rw [State.offer_rsp, hcrc]
  · refine ⟨_, (serve_encode (.crcCheck e) r.final).trans (exec_crcCheck e r.final), ?_, ?_⟩
    · rw [State.offer_matchFlag, hcrc, validate]
    · rw [State.offer_rsp, hcrc, validate]

end Sys2Proof.Machine
end

section
/-! PROOF. Errors (R92, R93, R98): which requests are answered with `err` = 1, what an illegal one leaves at the ports
and in a run, and that no step stops (R122, log 12). -/

namespace Sys2Proof.Machine

/-! ### Only an illegal request is answered with `err` = 1 (R92, R93) -/

/-- No operation raises an error: `IllegalOp` comes from decoding alone (R92). -/
theorem exec_rsp_err_false (i : Instr) (s : State) :
    ∃ (t : State) (d : Word), exec i s = .next t ∧ t.rsp = some ⟨false, d⟩ := by
  cases i <;> exact ⟨_, _, rfl, rfl⟩

theorem decode_of_illegalRequest_false {w : ReqWord} (h : illegalRequest w = false) : ∃ i, decode w = .ok i := by
  cases hd : decode w with
  | ok i => exact ⟨i, rfl⟩
  | error e => simp [illegalRequest_of_decode hd] at h

theorem serve_of_illegalRequest_false {w : ReqWord} (h : illegalRequest w = false) (s : State) :
    ∃ (t : State) (d : Word), serve w s = .next t ∧ t.rsp = some ⟨false, d⟩ := by
  obtain ⟨i, hi⟩ := decode_of_illegalRequest_false h
  rw [serve_of_ok hi]
  exact exec_rsp_err_false i s

/-! ### Errors at the ports -/

/-- The edge at which a request completes serves it on the state with the cycle's inputs taken away, nothing in progress
and nothing offered (R120). -/
theorem step_of_completing {s : State} {w : ReqWord} (h : s.completing = some w) :
    step s = serve w s.popInput.quiet := by
  rw [step_eq_cycle]
  obtain ⟨hr, -⟩ | ⟨v, -, hv, -, hc⟩ | ⟨-, -, -, hnone, -⟩ | ⟨-, hnone, -⟩ := cycle_cases s
  · simp [State.completing, hr] at h
  · obtain rfl : v = w := by simpa [hv] using h
    exact hc
  · simp [hnone] at h
  · simp [hnone] at h

/-- Every clock cycle ends in a next state (R122). -/
theorem exists_step_eq_next (s : State) : ∃ t, step s = .next t := by
  rw [step_eq_cycle]
  obtain ⟨-, hc⟩ | ⟨w, -, -, -, hc⟩ | ⟨w, n, -, -, -, hc⟩ | ⟨-, -, -, -, hc⟩ := cycle_cases s
  · exact ⟨_, hc⟩
  · obtain ⟨t, ht, -⟩ := serve_answered w s.popInput.quiet
    exact ⟨t, hc.trans ht⟩
  · exact ⟨_, hc⟩
  · exact ⟨_, hc⟩

/-- Settles O39: decoding alone raises `IllegalOp`, and the completing edge serves the request on the emptied ports. -/
theorem illegalOpAnswersAndWritesNothing : Obligations.IllegalOpAnswersAndWritesNothing := by
  unfold Obligations.IllegalOpAnswersAndWritesNothing
  refine ⟨fun w s h => serve_of_illegalRequest h s, fun w s t h e => ?_, fun w s h hw => ?_⟩
  · obtain ⟨u, d, hu, hrsp⟩ := serve_of_illegalRequest_false h s
    obtain rfl : u = t := by simpa [hu] using e
    simp [hrsp]
  · rw [step_of_completing hw, serve_of_illegalRequest h]
    rfl

/-- Settles O40: a legal request is an operation, and none of the cases of a cycle stops. -/
theorem legalRequestsNeverErr : Obligations.LegalRequestsNeverErr := by
  unfold Obligations.LegalRequestsNeverErr
  exact ⟨fun w s h => serve_of_illegalRequest_false h s, exists_step_eq_next⟩

/-- Settles O41: an illegal request answers the same in every state and writes no register, so it can be inserted
anywhere. -/
theorem illegalRequestsAreAsIfNotSent : Obligations.IllegalRequestsAreAsIfNotSent := by
  unfold Obligations.IllegalRequestsAreAsIfNotSent
  intro before after w s h
  exact runRequests_insert (serve_of_illegalRequest h) before after s

end Sys2Proof.Machine
end

section
/-! PROOF. A measurement (R110): what the checks of its two groups answer, and the driver's verdict on them. -/

namespace Sys2Proof.Machine

/-- The check of a group is `CRC.VALIDATE` of its two data octets (R64, R110). -/
theorem groupRequests_eq_bracketed (g : OctetGroup) : groupRequests g = bracketed [g.hi, g.lo] (.crcCheck g.ck) := rfl

theorem checkPassed_ite (m : Bool) : checkPassed ⟨false, if m then 0x0001 else 0x0000⟩ = m := by
  cases m <;> rfl

/-- The check of a group answers four responses from every state, and the last passes exactly when the group is good. -/
theorem runRequests_groupRequests (g : OctetGroup) (s : State) :
    ∃ r : Run, runRequests (groupRequests g) s = .next r ∧ r.responses.length = 4 ∧
      r.responses[3]?.any checkPassed = g.good := by
  obtain ⟨t, u, r, hcrc, hu, hr, -, hlast⟩ := runRequests_bracketed [g.hi, g.lo] (.crcCheck g.ck) s
  rw [← groupRequests_eq_bracketed] at hr
  obtain ⟨r', hr', hlen⟩ := runRequests_answered (groupRequests g) s
  obtain rfl : r' = r := by simpa [hr'] using hr
  rw [exec_crcCheck] at hu
  cases hu
  rw [List.getLast?_eq_getElem?, hlen] at hlast
  refine ⟨r', hr, hlen, ?_⟩
  calc r'.responses[3]?.any checkPassed
      = checkPassed ⟨false, if t.crc == g.ck then 0x0001 else 0x0000⟩ := congrArg (Option.any checkPassed) hlast
    _ = g.good := by rw [checkPassed_ite, hcrc]; rfl

/-- A measurement command and the check of a group, whatever is sent after them. -/
theorem runRequests_measure_group (cs lp hf : Bool) (g : OctetGroup) (s : State) :
    ∃ (x : Response) (a : Run), a.responses.length = 4 ∧ a.responses[3]?.any checkPassed = g.good ∧
      ∀ (ws : List ReqWord) (b : Run), runRequests ws a.final = .next b →
        runRequests (encode (.cmdMeas cs lp hf) :: (groupRequests g ++ ws)) s
          = .next ⟨b.final, x :: (a.responses ++ b.responses)⟩ := by
  have hcmd := (serve_encode (.cmdMeas cs lp hf) s).trans (exec_cmdMeas cs lp hf s)
  obtain ⟨a, ha, hlen, hcheck⟩ := runRequests_groupRequests g (s.offer false (measCase cs lp hf).1)
  exact ⟨_, a, hlen, hcheck, fun ws b hb => runRequests_cons hcmd (runRequests_append _ ws ha hb)⟩

/-- The verdict reads the last of the four responses to each group; no response is a check not passed. -/
theorem measured_eq_ite {f : RawFrame} {first second : List Response} (hlen : first.length = 4)
    (hf : Bool) (x : Response) :
    measured hf f (x :: (first ++ second)) =
      if first[3]?.any checkPassed = true ∧ second[3]?.any checkPassed = true then
        (if hf then .codes f.second.code f.first.code else .codes f.first.code f.second.code)
      else .checksumFault := by
  have hfirst : (x :: (first ++ second))[4]? = first[3]? := by
    rw [List.getElem?_cons_succ, List.getElem?_append_left (by omega)]
  have hsecond : (x :: (first ++ second))[8]? = second[3]? := by
    rw [List.getElem?_cons_succ, List.getElem?_append_right (by omega), hlen]
  simp only [measured, hfirst, hsecond, Bool.and_eq_true]

/-- Settles O51: each group's check passes exactly when the group is good, and a check not sent does not pass. -/
theorem measurementNeedsBothGroupsGood : Obligations.MeasurementNeedsBothGroupsGood := by
  unfold Obligations.MeasurementNeedsBothGroupsGood
  intro cs lp hf f s
  obtain ⟨x, a, hlen, hfirst, hrun⟩ := runRequests_measure_group cs lp hf f.first s
  refine ⟨?_, fun hbad => ?_⟩
  · obtain ⟨b, hb, -, hsecond⟩ := runRequests_groupRequests f.second a.final
    refine ⟨_, hrun _ b hb, ?_⟩
    rw [measured_eq_ite hlen, hfirst, hsecond]
  · refine ⟨_, hrun [] _ (runRequests_nil a.final), ?_⟩
    rw [measured_eq_ite hlen, hfirst, hbad]
    rfl

end Sys2Proof.Machine
end

section
/-! PROOF. The invariant of the ports (R120, R121), with the responses the spec allows (R39, R58), and the reset edge
(R114, R115). -/

namespace Sys2Proof.Machine

open Sys2Proof.Safety

/-! ### The responses are legal (R39, R58) -/

/-- An operation of the checksum validator answers an octet, zero-extended (R58, R81 to R84). -/
theorem exec_validator {i : Instr} (h : (opField (encode i)).getLsbD 3 = true) {s t : State} (e : exec i s = .next t) :
    ∃ c : Octet, t.rsp = some ⟨false, zext16 c⟩ := by
  cases i with
  | crcInit => cases e; exact ⟨crcInit, rfl⟩
  | crcAbsorb b => cases e; exact ⟨crc8Octet s.crc b, rfl⟩
  | crcCheck x =>
    rw [exec_crcCheck] at e
    cases e
    exact ⟨if s.crc == x then 0x01 else 0x00, by cases s.crc == x <;> rfl⟩
  | crcRead => cases e; exact ⟨s.crc, rfl⟩
  | cmdSleep | cmdWake | cmdReset | cmdReadId => cases h
  | cmdMeas => simp [encode] at h

theorem legalResponse_readTbl : ∀ k : Fin 12, legalResponse ⟨false, readTbl k⟩ = true := by decide

theorem legalResponse_zext16 (c : Octet) : legalResponse ⟨false, zext16 c⟩ = true := by
  have hhigh : (zext16 c).extractLsb' 8 8 = 0x00 := by
    rw [zext16, setWidth_eq_zero_append]
    exact BitVec.extractLsb'_append_eq_left
  simp [legalResponse, hhigh]

/-- Every operation answers a command word or an octet (R39, R58). -/
theorem exec_rsp_legal {i : Instr} {s t : State} (e : exec i s = .next t) : t.rsp.all legalResponse = true := by
  cases hop : (opField (encode i)).getLsbD 3 with
  | false =>
    obtain ⟨k, hk⟩ := exec_command hop
    rw [hk] at e
    cases e
    exact legalResponse_readTbl k
  | true =>
    obtain ⟨c, hc⟩ := exec_validator hop e
    rw [hc]
    exact legalResponse_zext16 c

theorem answered_of_serve {w : ReqWord} {s t : State} (e : serve w s = .next t) : Answered s t := by
  obtain ⟨u, hu, ha⟩ := serve_answered w s
  obtain rfl : u = t := by simpa [hu] using e
  exact ha

theorem serve_rsp_legal {w : ReqWord} {s t : State} (e : serve w s = .next t) : t.rsp.all legalResponse = true := by
  cases hd : decode w with
  | ok i => rw [serve_of_ok hd] at e; exact exec_rsp_legal e
  | error x => rw [serve_of_error hd] at e; cases e; rfl

/-! ### The invariant of the ports (R120, R121) -/

/-- With nothing in progress the invariant asks for a legal response only. -/
theorem portsOk_of_inFlight_none {s : State} (hf : s.inFlight = none) (hl : s.rsp.all legalResponse = true) :
    PortsOk s :=
  ⟨fun _ => hf, by rw [hf]; rfl, hl⟩

/-- An operation that waits on, whether in progress already or accepted in this cycle, is within its latency. -/
theorem waitInRange_of_waits {s : State} {w : ReqWord} {n : Nat} (hs : PortsOk s) (h : Waits s w (n + 1)) :
    waitInRange s.build ⟨w, n⟩ = true := by
  simp only [waitInRange, decide_eq_true_eq]
  obtain hf | ⟨-, -, -, hextra⟩ := h
  · have hwait : n + 1 < extraCycles s.build w := by simpa [hf, waitInRange] using hs.withinLatency
    omega
  · omega

/-- Settles O49: an edge leaves nothing in progress and no response but that of serving a request, or an operation that
waits one edge less. -/
theorem portsInvariantIsKept : Obligations.PortsInvariantIsKept := by
  unfold Obligations.PortsInvariantIsKept
  intro s t hs e
  rw [step_eq_cycle] at e
  obtain ⟨-, hc⟩ | ⟨w, -, -, -, hc⟩ | ⟨w, n, -, -, hw, hc⟩ | ⟨-, -, -, -, hc⟩ := cycle_cases s <;> rw [hc] at e
  · cases e; exact portsOk_of_inFlight_none rfl rfl
  · exact portsOk_of_inFlight_none (answered_of_serve e).inFlight_eq (serve_rsp_legal e)
  · have hwait := waitInRange_of_waits hs hw
    cases e
    exact ⟨fun h => (nomatch h), hwait, rfl⟩
  · cases e; exact portsOk_of_inFlight_none rfl rfl

/-- Settles O50: the reset state offers nothing. -/
theorem portsInvariantAtReset : Obligations.PortsInvariantAtReset :=
  ⟨rfl, rfl, portsOk_of_inFlight_none rfl rfl⟩

/-! ### The reset edge (R114, R115) -/

theorem step_of_reset {s : State} (h : s.nextInput.rst = true) : step s = .next s.popInput.applyReset := by
  simp [step_eq_cycle, cycle, edge, h]

/-- With both latencies 1 no request waits an edge (R15, R120). -/
theorem extraCycles_eq_zero {b : Config.Build} (hcmd : b.latCmd = 1) (hcrc : b.latCrc = 1) (w : ReqWord) :
    extraCycles b w = 0 := by
  have hlat : latency b w = 1 := by rw [latency, hcmd, hcrc, ite_self]
  rw [latency_eq] at hlat
  omega

/-- Settles O42: the edge is `applyReset`, and what is in progress waits for fewer edges than its latency leaves. -/
theorem resetEdgeWinsOverEverything : Obligations.ResetEdgeWinsOverEverything := by
  unfold Obligations.ResetEdgeWinsOverEverything
  refine ⟨fun s h => ⟨by simp [State.accepted, h], _, step_of_reset h, rfl, rfl, rfl, rfl, fun _ => rfl, rfl, rfl⟩,
    fun s hs hcmd hcrc => ?_⟩
  cases hf : s.inFlight with
  | none => rfl
  | some f =>
    have hwait : f.wait < extraCycles s.build f.req := by simpa [hf, waitInRange] using hs.withinLatency
    rw [extraCycles_eq_zero hcmd hcrc] at hwait
    exact absurd hwait (Nat.not_lt_zero _)

end Sys2Proof.Machine
end

section
/-! PROOF. The handshake (R120): when a request is accepted, what its completing edge runs, and that every accepted
request is answered after its latency (R122). -/

namespace Sys2Proof.Machine

/-! ### Acceptance (R120) -/

theorem outputs_reqReady_iff {s : State} : s.outputs.reqReady = true ↔ s.inFlight = none := Option.isNone_iff_eq_none

theorem exists_inFlight_of_not_ready {s : State} (h : s.outputs.reqReady = false) : ∃ f, s.inFlight = some f := by
  refine Option.ne_none_iff_exists'.mp fun hnone => ?_
  rw [outputs_reqReady_iff.mpr hnone] at h
  cases h

theorem accepted_eq_some_iff {s : State} {w : ReqWord} : s.accepted = some w ↔
    s.nextInput.rst = false ∧ s.nextInput.reqValid = true ∧ s.outputs.reqReady = true ∧ s.nextInput.req = w := by
  simp [State.accepted, State.outputs, and_assoc]

theorem accepted_of_inFlight {s : State} {f : InFlight} (h : s.inFlight = some f) : s.accepted = none := by
  simp [State.accepted, h]

/-- While an operation is in progress an edge without reset advances it, whatever stands on the request port (R120). -/
theorem step_of_inFlight {s : State} {f : InFlight} (hr : s.nextInput.rst = false) (hf : s.inFlight = some f) :
    step s = advance f s.popInput := by
  simp [step_eq_cycle, cycle, edge, hr, hf]

/-- A response is offered after an edge exactly when an operation completed at it (R120). -/
theorem step_rsp_isSome {s t : State} (e : step s = .next t) : t.rsp.isSome = s.completing.isSome := by
  cases hw : s.completing with
  | some w =>
    rw [step_of_completing hw] at e
    exact (answered_of_serve e).rsp_isSome
  | none =>
    cases hr : s.nextInput.rst with
    | true => rw [step_of_reset hr] at e; cases e; rfl
    | false => rw [(step_of_completing_none hr hw e).2]; rfl

/-- Settles O45: a busy block advances what is in progress, and only a completing edge offers a response. -/
theorem requestPortCountsOnlyWhenReady : Obligations.RequestPortCountsOnlyWhenReady := by
  unfold Obligations.RequestPortCountsOnlyWhenReady
  refine ⟨fun s w => accepted_eq_some_iff, fun s v v' w w' rest hbusy => ?_, fun s t e => ?_⟩
  · obtain ⟨f, hf⟩ := exists_inFlight_of_not_ready hbusy
    have hadvance (v : Bool) (w : ReqWord) :
        step { s with inputs := ⟨false, v, w⟩ :: rest } = advance f { s with inputs := rest } :=
      step_of_inFlight rfl hf
    rw [hadvance, hadvance]
  · exact Bool.eq_iff_iff.mp (step_rsp_isSome e)

/-! ### What the completing edge runs (R120) -/

/-- An operation with no edge left to wait for completes at this edge. -/
theorem Waits.completing {s : State} {w : ReqWord} (h : Waits s w 0) (hr : s.nextInput.rst = false) :
    s.completing = some w := by
  obtain hf | ⟨hf, hv, hw, hextra⟩ := h
  · simp [State.completing, hr, hf]
  · simp [State.completing, hr, hf, hv, hw, hextra]

theorem Waits.step_of_decode {s : State} {w : ReqWord} {i : Instr} (h : Waits s w 0) (hr : s.nextInput.rst = false)
    (hd : decode w = .ok i) : step s = exec i s.popInput.quiet := by
  rw [step_of_completing (h.completing hr), serve_of_ok hd]

/-- Settles O43: in both cases the word has no edge left to wait for. -/
theorem stepRunsTheDecodedOperation : Obligations.StepRunsTheDecodedOperation := by
  unfold Obligations.StepRunsTheDecodedOperation
  refine fun s w i hd hr => ⟨fun hf => Waits.step_of_decode (.inl hf) hr hd, fun hf hv hw hlat => ?_⟩
  have hextra : extraCycles s.build w = 0 := by rw [latency_eq] at hlat; omega
  exact Waits.step_of_decode (.inr ⟨hf, hv, hw, hextra⟩) hr hd

/-- A table word that decodes is a request word that decodes (log 7). -/
theorem decode_of_decodeTableWord {nbits w : Nat} {i : Instr} (h : decodeTableWord nbits w = some i) :
    decode (BitVec.ofNat 12 (w % 2 ^ nbits)) = .ok i := by
  simp only [decodeTableWord, Option.ite_none_right_eq_some] at h
  obtain ⟨-, hopt⟩ := h
  cases hd : decode (BitVec.ofNat 12 (w % 2 ^ nbits)) with
  | ok j => rw [hd] at hopt; cases hopt; rfl
  | error x => rw [hd] at hopt; cases hopt

/-- A placed word has no edge left to wait for: it is accepted with latency 1, or in its last cycle (log 7). -/
theorem waits_withFetchWord (s : State) (nbits w : Nat) :
    Waits (s.withFetchWord nbits w) (BitVec.ofNat 12 (w % 2 ^ nbits)) 0 := by
  by_cases hextra : extraCycles s.build (BitVec.ofNat 12 (w % 2 ^ nbits)) = 0
  · exact .inr ⟨if_pos hextra, rfl, rfl, hextra⟩
  · exact .inl (if_neg hextra)

/-- Settles O44: the placed word completes at the next edge. -/
theorem placedWordRunsNext : Obligations.PlacedWordRunsNext := by
  unfold Obligations.PlacedWordRunsNext
  intro s nbits w i h
  exact (waits_withFetchWord s nbits w).step_of_decode rfl (decode_of_decodeTableWord h)

/-! ### Every request is answered after its latency (R122) -/

/-- An accepted request waits for the edges its latency leaves. -/
theorem waits_of_accepted {s : State} {w : ReqWord} (h : s.accepted = some w) : Waits s w (extraCycles s.build w) := by
  obtain ⟨-, hv, hready, hw⟩ := accepted_eq_some_iff.mp h
  exact .inr ⟨outputs_reqReady_iff.mp hready, hv, hw, rfl⟩

/-- The cycle after an edge at which the request `w` only waits, with `n` edges still to wait for. -/
def State.waiting (s : State) (w : ReqWord) (n : Nat) : State :=
  { s.popInput with inFlight := some ⟨w, n⟩, rsp := none }

theorem State.waits_waiting (s : State) (w : ReqWord) (n : Nat) : Waits (s.waiting w n) w n := .inl rfl

theorem State.sameRegisters_waiting (s : State) (w : ReqWord) (n : Nat) : SameRegisters s (s.waiting w n) := ⟨rfl, rfl⟩

/-- An edge of an operation that waits on leaves it in progress with one edge less, silent, and the registers as they
are (R29, R120). -/
theorem Waits.cycle_succ {s : State} {w : ReqWord} {n : Nat} (h : Waits s w (n + 1)) (hr : s.nextInput.rst = false) :
    cycle s = .next (s.waiting w n) := by
  obtain hf | ⟨hf, hv, hw, hextra⟩ := h
  · simp [cycle, edge, hr, hf, advance, State.waiting]
  · simp [cycle, edge, hr, hf, hv, hw, hextra, advance, State.waiting]

/-- Before its last cycle an operation is in progress, silent, and the registers stay (R29, R120). -/
theorem runCycles_of_waits {k m : Nat} {s : State} {w : ReqWord} (h : Waits s w (m + k + 1))
    (hr : ∀ inp ∈ s.inputs.take (k + 1), inp.rst = false) :
    ∃ u : PortRun, runCycles (k + 1) s = .next u ∧ u.final.inFlight = some ⟨w, m⟩ ∧ u.final.rsp = none ∧
      SameRegisters s u.final ∧ u.responses = [] := by
  induction k generalizing s with
  | zero =>
    obtain ⟨hnow, -⟩ := noReset_succ hr
    exact ⟨_, runCycles_succ (h.cycle_succ hnow) rfl, rfl, rfl, ⟨rfl, rfl⟩, rfl⟩
  | succ k ih =>
    obtain ⟨hnow, hlater⟩ := noReset_succ hr
    obtain ⟨u, hu, hf, hrsp, hregs, hresp⟩ := ih (s.waits_waiting w (m + k + 1)) hlater
    exact ⟨_, runCycles_succ (h.cycle_succ hnow) hu, hf, hrsp, hregs, hresp⟩

/-- After the edges it waits for, a request is answered as serving it from the registers of now answers, and the block
is ready again (R29, R122). -/
theorem runCycles_answers {n : Nat} {s t : State} {w : ReqWord} (h : Waits s w n) (ht : serve w s = .next t)
    (hr : ∀ inp ∈ s.inputs.take (n + 1), inp.rst = false) :
    ∃ u : PortRun, runCycles (n + 1) s = .next u ∧ u.accepted = s.accepted.toList ∧ u.responses = t.rsp.toList ∧
      u.final.inFlight = none ∧ u.final.rsp = t.rsp ∧ SameRegisters t u.final := by
  induction n generalizing s t with
  | zero =>
    obtain ⟨hnow, -⟩ := noReset_succ hr
    have hquiet : SameRegisters s s.popInput.quiet := ⟨rfl, rfl⟩
    obtain ⟨t', ht', hregs, hrsp⟩ := serve_congr w hquiet ht
    have hidle : t'.inFlight = none := (answered_of_serve ht').inFlight_eq
    have hc : cycle s = .next t' := (step_of_completing (h.completing hnow)).trans ht'
    exact ⟨_, runCycles_succ hc rfl, List.append_nil _, by simp [hrsp], hidle, hrsp, hregs⟩
  | succ n ih =>
    obtain ⟨hnow, hlater⟩ := noReset_succ hr
    obtain ⟨t', ht', hregs', hrsp'⟩ := serve_congr w (s.sameRegisters_waiting w n) ht
    obtain ⟨u, hu, hacc, hresp, hf, hrsp, hregs⟩ := ih (s.waits_waiting w n) ht' hlater
    refine ⟨_, runCycles_succ (h.cycle_succ hnow) hu, ?_, ?_, hf, hrsp.trans hrsp', hregs'.trans hregs⟩
    · have hnone : (s.waiting w n).accepted = none := accepted_of_inFlight rfl
      simp [hacc, hnone]
    · simp [hresp, hrsp', State.waiting]

/-- Settles O46: an accepted request waits for the edges its latency leaves, is silent before the last of them and
answered at it. -/
theorem everyRequestIsAnsweredAfterItsLatency : Obligations.EveryRequestIsAnsweredAfterItsLatency := by
  unfold Obligations.EveryRequestIsAnsweredAfterItsLatency
  refine ⟨fun s w hacc hr => ⟨fun n hpos hn => ?_, ?_⟩, runRequests_answered⟩
  · obtain ⟨k, rfl⟩ := Nat.exists_eq_add_one.mpr hpos
    obtain ⟨m, hm⟩ : ∃ m, extraCycles s.build w = m + k + 1 :=
      ⟨extraCycles s.build w - (k + 1), by rw [latency_eq] at hn; omega⟩
    have hreset : ∀ inp ∈ s.inputs.take (k + 1), inp.rst = false :=
      fun inp hinp => hr inp (List.take_subset_take_left _ hn.le hinp)
    obtain ⟨u, hu, hf, hrsp, ⟨hcrc, hmatch⟩, hresp⟩ := runCycles_of_waits (hm ▸ waits_of_accepted hacc) hreset
    exact ⟨u, hu, by simp [State.outputs, hf], by simp [State.outputs, hrsp], hcrc, hmatch, hresp⟩
  · obtain ⟨t, ht, ha⟩ := serve_answered w s
    rw [latency_eq] at hr ⊢
    obtain ⟨u, hu, haccepted, hresp, hf, hrsp, hcrc, hmatch⟩ := runCycles_answers (waits_of_accepted hacc) ht hr
    rw [hacc] at haccepted
    exact ⟨t, u, ht, hu, haccepted, hresp, outputs_reqReady_iff.mpr hf, hrsp, ha.rsp_isSome, hcrc, hmatch⟩

end Sys2Proof.Machine
end

section
/-! PROOF. A good frame with one octet changed is no reading (R131, R90). -/

namespace Sys2Proof.Machine

/-- The three octets of a group in the order received (R41). -/
def OctetGroup.octets (g : OctetGroup) : List Octet := [g.hi, g.lo, g.ck]

@[simp] theorem OctetGroup.octets_length (g : OctetGroup) : g.octets.length = 3 := rfl

theorem RawFrame.octets_eq_append (f : RawFrame) : f.octets = f.first.octets ++ f.second.octets := rfl

/-- A good group with one octet changed is not good (R90). -/
theorem good_eq_false_of_set {g g' : OctetGroup} {k : Nat} {v : Octet} (hgood : g.good = true) (hk : k < 3)
    (hne : g.octets[k]? ≠ some v) (hset : g'.octets = g.octets.set k v) : g'.good = false := by
  obtain ⟨-, hhi, hlo, hck⟩ := oneChangedOctetIsDetected
  obtain ⟨hi, lo, ck⟩ := g
  obtain ⟨hi', lo', ck'⟩ := g'
  match k, hk with
  | 0, _ =>
    obtain ⟨rfl, rfl, rfl⟩ : hi' = v ∧ lo' = lo ∧ ck' = ck := by simpa [OctetGroup.octets] using hset
    exact hhi _ _ _ _ hgood fun h => hne (congrArg some h.symm)
  | 1, _ =>
    obtain ⟨rfl, rfl, rfl⟩ : hi' = hi ∧ lo' = v ∧ ck' = ck := by simpa [OctetGroup.octets] using hset
    exact hlo _ _ _ _ hgood fun h => hne (congrArg some h.symm)
  | 2, _ =>
    obtain ⟨rfl, rfl, rfl⟩ : hi' = hi ∧ lo' = lo ∧ ck' = v := by simpa [OctetGroup.octets] using hset
    exact hck _ _ _ _ hgood fun h => hne (congrArg some h.symm)

/-- A frame of two good groups with one octet changed has a group that is not good. -/
theorem exists_bad_group_of_set {sent got : RawFrame} {k : Nat} {v : Octet} (hfirst : sent.first.good = true)
    (hsecond : sent.second.good = true) (hk : k < 6) (hne : sent.octets[k]? ≠ some v)
    (hset : got.octets = sent.octets.set k v) : ¬(got.first.good = true ∧ got.second.good = true) := by
  rw [RawFrame.octets_eq_append] at hne
  rw [got.octets_eq_append, sent.octets_eq_append] at hset
  rcases Nat.lt_or_ge k 3 with hk3 | hk3
  · rw [List.getElem?_append_left hk3] at hne
    rw [List.set_append_left _ _ hk3] at hset
    obtain ⟨hgot, -⟩ := List.append_inj hset (by simp)
    simp [good_eq_false_of_set hfirst hk3 hne hgot]
  · rw [List.getElem?_append_right hk3] at hne
    rw [List.set_append_right _ _ hk3] at hset
    obtain ⟨-, hgot⟩ := List.append_inj hset (by simp)
    have hkrest : k - sent.first.octets.length < 3 := by rw [OctetGroup.octets_length]; omega
    simp [good_eq_false_of_set hsecond hkrest hne hgot]

/-- Settles O52: one of the two checks fails, so the verdict is not a reading. -/
theorem oneCorruptedOctetNeverBecomesAReading : Obligations.OneCorruptedOctetNeverBecomesAReading := by
  unfold Obligations.OneCorruptedOctetNeverBecomesAReading
  intro cs lp hf sent got k v s hfirst hsecond hk hne hset
  obtain ⟨⟨r, hr, hverdict⟩, -⟩ := measurementNeedsBothGroupsGood cs lp hf got s
  rw [if_neg (exists_bad_group_of_set hfirst hsecond hk hne hset)] at hverdict
  exact ⟨r, hr, hverdict⟩

end Sys2Proof.Machine
end
